-- ==== Sys2Proof/Word.lean ====
section
/-!
DEFINITION. The two widths the spec moves about: a transferred byte (`BYTE_BITS` = 8) and the
accumulator and operand word (`ACC_BITS` = 32), 00_scope R6.
-/

namespace Sys2Proof

/-- One transferred byte (00_scope R6, R8). -/
abbrev Byte := BitVec 8

/-- An accumulator, operand or `LEXT` word (00_scope R6, R8). -/
abbrev Word := BitVec 32

/-- The stored width register: `DW_BITS` = 3 bits holding the integer itself (10_state R21). -/
abbrev Width := BitVec 3

end Sys2Proof
end

