-- ==== Sys2Proof/Config.lean ====
section
/-!
DEFINITION. What an implementation fixes (00_scope R6), the vocabulary of the block's two ports and
of its opcode table, and the free values: constants without a body, of which nothing can be proved.
-/

namespace Sys2Proof

/-- The action half of an operation (20_memory R51): the verbs "clear, read, write, load". -/
inductive Action where
  | clear | read | write | load
  deriving DecidableEq, Repr, Inhabited

/-- The six peripheral registers the operations name (10_state R33). -/
inductive PReg where
  | mdr0 | mdr1 | dtr | cntr | otr | str
  deriving DecidableEq, Repr, Inhabited

/-- The five frame formats of a bus operation (30_encoding R84). `F_X`, the format of `LEXT`, is no
frame and has no constructor here. -/
inductive Format where
  /-- `F_C`: command byte only. -/
  | commandOnly
  /-- `F_R1`: read one byte. -/
  | readByte
  /-- `F_RN`: read `DW` bytes. -/
  | readWord
  /-- `F_W1`: write one byte. -/
  | writeByte
  /-- `F_WN`: write `DW` bytes. -/
  | writeWord
  deriving DecidableEq, Repr, Inhabited

/-- The failure kinds of 60_exceptions R170. -/
inductive Failure where
  /-- "transfer call failed" (R171). -/
  | transportFailure
  /-- "chip-select state change failed" (R172). -/
  | pinFailure
  /-- `DW` outside 1 to 4 (R173). -/
  | invalidWidthState
  /-- The select code names no operation (30_encoding R93). -/
  | illegalOp
  deriving DecidableEq, Repr, Inhabited

/-- The level of the chip-select line (10_state R31): low selects, high deselects (00_scope R6). -/
inductive Level where
  | high | low
  deriving DecidableEq, Repr, Inhabited

/-- What the environment does with one call (00_scope R9, 60_exceptions R182, R189). -/
inductive Reply where
  /-- The call succeeded. A transfer takes `rx` from it; a pin call does not look at `rx`. -/
  | ok (rx : Byte)
  /-- The call failed. -/
  | fail
  /-- The call has not been answered: the engine waits in it. -/
  | silent
  deriving DecidableEq, Repr, Inhabited

/-- One host action at the block's upper side (30_encoding R92, R96; 60_exceptions R192). -/
inductive HostInput where
  /-- A request `(op, wdata)` on the request port. -/
  | request (op : Byte) (wdata : Word)
  /-- A word on the `LEXT` port. -/
  | lext (v : Word)
  /-- The reset input (70_reset_and_hazards R201). -/
  | reset
  /-- MODEL's own: the host does nothing for one step (DESIGN CHOICE, log 6). -/
  | quiet
  deriving DecidableEq, Repr, Inhabited

/-- `DUMMY_BYTE`, the byte sent while a read payload byte is received (41_read R121, decision D6,
log 11). Use it by name: no result may depend on its value. -/
def Config.dummyByte : Byte := 0x00#8

/-- `RESET_WIDTH` (00_scope R6, 70_reset_and_hazards R200). -/
def Config.resetWidth : Width := 4#3

/-- `CLEAR_VALUE`, what a register of the reference peripheral takes when cleared (20_memory R73,
log 12). -/
def Config.clearValue : Word := 0x00000000#32

/-- The most calls one operation makes: `CsLow`, the command byte, four payload bytes, `CsHigh`
(30_encoding R84 with `DW` at most 4); an aborted frame makes no more (60_exceptions R175). -/
def Config.callLimit : Nat := 7

/-- How far the free-value counter moves at each use, so that no two uses share an index. -/
def Config.drawStride : Nat := 4

/-- The environment's reply to a call the script does not fix (00_scope R3c, log 2). -/
opaque Config.freeReply : Nat → Reply

/-- A value of `w` bits that the spec leaves open (logs 4, 14). -/
opaque Config.freeBits : (w : Nat) → Nat → BitVec w

/-- The data output of a port whose result carries no value (93_implementation_defined U7, log 23). -/
opaque Config.freeOutput : Nat → Word

/-- A line level that the spec leaves open (93_implementation_defined U5, log 19). -/
opaque Config.freeLevel : Nat → Level

/-- The content of the failure latch where the spec leaves it open (U8, log 4). -/
opaque Config.freeFailure : Nat → Failure

end Sys2Proof
end

