-- ==== Sys2Proof/Syntax.lean ====
section
/-!
DEFINITION. The 15 operations of the opcode table (30_encoding R82, R92), one constructor per row.
-/

namespace Sys2Proof

/-- An operation with its operand. The operand types are the widths of 30_encoding R82, so every
term of this type is an operation the host can ask for. -/
inductive Instr where
  /-- `CLR_MDR0`, Clear Mode Register 0 (40_clear R111). -/
  | clrMdr0
  /-- `CLR_MDR1`, Clear Mode Register 1 (40_clear R112). -/
  | clrMdr1
  /-- `CLR_CNTR`, Clear Counter (40_clear R113). -/
  | clrCntr
  /-- `CLR_STR`, Clear Status Register (40_clear R114). -/
  | clrStr
  /-- `RD_MDR0`, Read Mode Register 0 (41_read R126). -/
  | rdMdr0
  /-- `RD_MDR1`, Read Mode Register 1 (41_read R127). -/
  | rdMdr1
  /-- `RD_CNTR`, Read Counter (41_read R124). -/
  | rdCntr
  /-- `RD_OTR`, Read Output-Transfer-Register (41_read R125). -/
  | rdOtr
  /-- `RD_STR`, Read Status Register (41_read R128). -/
  | rdStr
  /-- `WR_MDR0 value`, Write Mode Register 0 (42_write R137). -/
  | wrMdr0 (value : Byte)
  /-- `WR_MDR1 value`, Write Mode Register 1 and set the data width (42_write R138). -/
  | wrMdr1 (value : Byte)
  /-- `WR_DTR v`, Write Data Register (42_write R140). -/
  | wrDtr (v : Word)
  /-- `LOAD_CNTR`, Load Counter (43_load R151). -/
  | loadCntr
  /-- `LOAD_OTR`, Load Output-Transfer-Register (43_load R152). -/
  | loadOtr
  /-- `LEXT v`, sign extension (44_sign_extend R161). -/
  | lext (v : Word)
  deriving DecidableEq, Repr, Inhabited

end Sys2Proof
end

