-- ==== Sys2Proof/WellFormed.lean ====
section
/-!
DEFINITION. Which presentations at the host port name an operation (30_encoding R81, R93, R94), and
which operations are well-formed (all of them: the operand types are the operands' widths).
-/

namespace Sys2Proof

/-- The 14 select codes, in the order of the opcode table (30_encoding R82). -/
def selectCodes : List Byte :=
  [0x08#8, 0x10#8, 0x20#8, 0x30#8, 0x48#8, 0x50#8, 0x60#8, 0x68#8, 0x70#8, 0x88#8, 0x90#8, 0x98#8,
    0xE0#8, 0xE8#8]

/-- A host action that asks for an operation: a request whose select code is one of the 14, matched
on all 8 bits (R81, R94), or any word on the `LEXT` port (R92). The reset input is not an operation
(60_exceptions R192), and doing nothing is none either. -/
def HostInput.wellFormed : HostInput → Bool
  | .request op _ => selectCodes.contains op
  | .lext _ => true
  | .reset | .quiet => false

/-- Every term of `Instr` is well-formed: all 256 operands of the byte writes are legal (10_state
R34, R35), all 32-bit operands of `WR_DTR` and `LEXT` are legal (42_write R140, 44_sign_extend R160),
and the other operations have no operand. -/
def Instr.wellFormed : Instr → Bool
  | .clrMdr0 | .clrMdr1 | .clrCntr | .clrStr => true
  | .rdMdr0 | .rdMdr1 | .rdCntr | .rdOtr | .rdStr => true
  | .wrMdr0 _ | .wrMdr1 _ | .wrDtr _ => true
  | .loadCntr | .loadOtr => true
  | .lext _ => true

end Sys2Proof
end

