-- ==== Sys2Proof/Decode.lean ====
section
/-!
DEFINITION. The opcode table (30_encoding R82, 20_memory R51), the decoder of a host action, total
and rejecting by name, and after it the encoder, written from the same table.
-/

namespace Sys2Proof

/-- Why a host action names no operation. -/
inductive DecodeError where
  /-- The select code is none of the 14 (30_encoding R93). -/
  | illegalOp (op : Byte)
  /-- The reset input is a separate input, not an operation (60_exceptions R192). -/
  | resetInput
  /-- The host does nothing (log 6). -/
  | nothingPresented
  deriving DecidableEq, Repr

/-- One row of the opcode table: command byte, action, register and frame format. -/
structure OpRow where
  code : Byte
  action : Action
  reg : PReg
  format : Format
  deriving DecidableEq, Repr

/-- The 14 rows of 30_encoding R82 with the action and register of 20_memory R51. -/
def opTable : List OpRow :=
  [ ⟨0x08#8, .clear, .mdr0, .commandOnly⟩,
    ⟨0x10#8, .clear, .mdr1, .commandOnly⟩,
    ⟨0x20#8, .clear, .cntr, .commandOnly⟩,
    ⟨0x30#8, .clear, .str, .commandOnly⟩,
    ⟨0x48#8, .read, .mdr0, .readByte⟩,
    ⟨0x50#8, .read, .mdr1, .readByte⟩,
    ⟨0x60#8, .read, .cntr, .readWord⟩,
    ⟨0x68#8, .read, .otr, .readWord⟩,
    ⟨0x70#8, .read, .str, .readByte⟩,
    ⟨0x88#8, .write, .mdr0, .writeByte⟩,
    ⟨0x90#8, .write, .mdr1, .writeByte⟩,
    ⟨0x98#8, .write, .dtr, .writeWord⟩,
    ⟨0xE0#8, .load, .cntr, .commandOnly⟩,
    ⟨0xE8#8, .load, .otr, .commandOnly⟩ ]

/-- The row of a command byte, by exact match of all 8 bits (30_encoding R81). -/
def rowOf (code : Byte) : Option OpRow := opTable.find? fun r => r.code == code

/-- Decoding of a request (30_encoding R81): the select code picks the operation, its operand is cut
from `wdata` (`wdata[7:0]` for the byte writes, all 32 bits for `WR_DTR`, ignored otherwise: R82,
40_clear R110, 41_read R120, 42_write R135, 43_load R150). -/
def decodeRequest (op : Byte) (wdata : Word) : Except DecodeError Instr :=
  if op = 0x08#8 then .ok .clrMdr0
  else if op = 0x10#8 then .ok .clrMdr1
  else if op = 0x20#8 then .ok .clrCntr
  else if op = 0x30#8 then .ok .clrStr
  else if op = 0x48#8 then .ok .rdMdr0
  else if op = 0x50#8 then .ok .rdMdr1
  else if op = 0x60#8 then .ok .rdCntr
  else if op = 0x68#8 then .ok .rdOtr
  else if op = 0x70#8 then .ok .rdStr
  else if op = 0x88#8 then .ok (.wrMdr0 (wdata.setWidth 8))
  else if op = 0x90#8 then .ok (.wrMdr1 (wdata.setWidth 8))
  else if op = 0x98#8 then .ok (.wrDtr wdata)
  else if op = 0xE0#8 then .ok .loadCntr
  else if op = 0xE8#8 then .ok .loadOtr
  else .error (.illegalOp op)

/-- Decoding of a host action: a request by its select code, a word on the `LEXT` port as `LEXT` of
that word (30_encoding R92). -/
def decode : HostInput → Except DecodeError Instr
  | .request op wdata => decodeRequest op wdata
  | .lext v => .ok (.lext v)
  | .reset => .error .resetInput
  | .quiet => .error .nothingPresented

/-- The host action that asks for an operation: select code and operand of 30_encoding R82; an
operand of 8 bits stands in `wdata[7:0]` with zeros above, and `wdata` is zero where it is ignored. -/
def encode : Instr → HostInput
  | .clrMdr0 => .request 0x08#8 0
  | .clrMdr1 => .request 0x10#8 0
  | .clrCntr => .request 0x20#8 0
  | .clrStr => .request 0x30#8 0
  | .rdMdr0 => .request 0x48#8 0
  | .rdMdr1 => .request 0x50#8 0
  | .rdCntr => .request 0x60#8 0
  | .rdOtr => .request 0x68#8 0
  | .rdStr => .request 0x70#8 0
  | .wrMdr0 value => .request 0x88#8 (value.setWidth 32)
  | .wrMdr1 value => .request 0x90#8 (value.setWidth 32)
  | .wrDtr v => .request 0x98#8 v
  | .loadCntr => .request 0xE0#8 0
  | .loadOtr => .request 0xE8#8 0
  | .lext v => .lext v

/-- The command byte of a bus operation, the first byte of its frame (30_encoding R80); `LEXT` has
none (R92). -/
def commandByte (i : Instr) : Option Byte :=
  match encode i with
  | .request op _ => some op
  | _ => none

/-- The host action whose bits are `w`, numbered as the opcode table numbers them (log 7): a row of
32 bits is the `LEXT` operand; otherwise bits 7..0 are the select code and the 32 bits above them
are `wdata`. -/
def hostInputOfTableWord (nbits w : Nat) : HostInput :=
  if nbits = 32 then .lext (BitVec.ofNat 32 w)
  else .request (BitVec.ofNat 8 w) (BitVec.ofNat 32 (w >>> 8))

/-- The operation the decoder reads from a table word. -/
def decodeTableWord (nbits w : Nat) : Option Instr :=
  match decode (hostInputOfTableWord nbits w) with
  | .ok i => some i
  | .error _ => none

/-- The mnemonic of 30_encoding R82 and R95. -/
def mnemonic : Instr → String
  | .clrMdr0 => "CLR_MDR0"
  | .clrMdr1 => "CLR_MDR1"
  | .clrCntr => "CLR_CNTR"
  | .clrStr => "CLR_STR"
  | .rdMdr0 => "RD_MDR0"
  | .rdMdr1 => "RD_MDR1"
  | .rdCntr => "RD_CNTR"
  | .rdOtr => "RD_OTR"
  | .rdStr => "RD_STR"
  | .wrMdr0 _ => "WR_MDR0"
  | .wrMdr1 _ => "WR_MDR1"
  | .wrDtr _ => "WR_DTR"
  | .loadCntr => "LOAD_CNTR"
  | .loadOtr => "LOAD_OTR"
  | .lext _ => "LEXT"

end Sys2Proof
end

