-- ==== Sys2Proof/Machine/State.lean ====
section
/-!
DEFINITION. The machine's state: the engine's registers (10_state section 1), its host port
(30_encoding R96, R92), the environment the engine changes but cannot see (10_state sections 2 and 3)
and the fields that hold what the environment and the host will do. Plain data throughout.
-/

namespace Sys2Proof.Machine

/-- The sequencer's phases (10_state R26). -/
inductive Phase where
  | idle | sel | cmd | data | desel | abort
  deriving DecidableEq, Repr, Inhabited

/-- One answered call (00_scope R10). A received byte that the engine discards is recorded too: the
environment sent it, and the spec writes it `--`. -/
inductive Event where
  /-- `CS_LOW`. -/
  | csLow
  /-- `CS_LOW!`. -/
  | csLowFail
  /-- `CS_HIGH`. -/
  | csHigh
  /-- `CS_HIGH!`. -/
  | csHighFail
  /-- `X(tx, rx)`. -/
  | xfer (tx rx : Byte)
  /-- `X(tx)!`. -/
  | xferFail (tx : Byte)
  deriving DecidableEq, Repr, Inhabited

/-- The result of an operation (00_scope R12). -/
inductive Result where
  /-- `Ok(())`. -/
  | done
  /-- `Ok(byte)`. -/
  | byte (b : Byte)
  /-- `Ok(word)`. -/
  | word (w : Word)
  /-- `Err(kind)`. -/
  | err (f : Failure)
  deriving DecidableEq, Repr, Inhabited

/-- Where the reference peripheral stands in a frame (20_memory R72). -/
inductive DeviceFrame where
  /-- No frame is open. -/
  | closed
  /-- A frame has started; the next byte is the command byte. -/
  | command
  /-- The command byte was `cmd`; the next byte is payload byte number `k`. -/
  | payload (cmd : Byte) (k : Nat)
  /-- The peripheral has seen something the spec gives it no behaviour for (U4, U12, log 14). -/
  | lost
  deriving DecidableEq, Repr, Inhabited

/-- The peripheral's registers as the operations name them (10_state R33; widths of 20_memory R71)
and its position in a frame (R72). Only the reference peripheral moves them (log 13). -/
structure Device where
  /-- Mode Register 0 (10_state R34). -/
  mdr0 : Byte
  /-- Mode Register 1 (10_state R35). -/
  mdr1 : Byte
  /-- Status Register (10_state R36). -/
  str : Byte
  /-- Data Register (10_state R37). -/
  dtr : Word
  /-- Counter (10_state R37). -/
  cntr : Word
  /-- Output-Transfer-Register (10_state R37). -/
  otr : Word
  /-- Position in the frame (20_memory R72). -/
  frame : DeviceFrame
  deriving DecidableEq, Repr, Inhabited

/-- Which environment answers the calls (20_memory R70, log 13). -/
inductive World where
  /-- Any environment: every received byte is the reply's. -/
  | arbitrary
  /-- The reference peripheral `Dev` supplies the bytes that it defines. -/
  | reference
  deriving DecidableEq, Repr, Inhabited

/-- Why the machine stops. -/
inductive Fault where
  /-- Raised by `step` alone: an operation is in flight, but `OPR`, `DW` and `IDX` do not describe a
  position of the sequencer that any acceptance or transition leaves (30_encoding R90). The spec gives
  such a state no behaviour and no rule reaches it (10_state R22). Safe: the model stops where nothing
  is said (log 20). -/
  | sequencerIncoherent
  deriving DecidableEq, Repr, Inhabited

/-- Why an operation has no meaning. -/
inductive Refusal where
  /-- Raised by an arm of `exec` whose operation has no meaning yet; no arm does. Safe. -/
  | notModelled (mnemonic : String)
  deriving DecidableEq, Repr, Inhabited

/-- The whole machine. -/
structure State where
  /-- `DW`, the data-width register, the one persistent register (10_state R20, R21). -/
  dw : Width
  /-- `SEQ`, the sequencer phase (10_state R26). -/
  seq : Phase
  /-- `ACC`, the accumulator (10_state R24). -/
  acc : Word
  /-- `IDX`, the payload byte index (10_state R25). -/
  idx : BitVec 2
  /-- `OPR`, the select code of the running operation (10_state R27). -/
  opr : Byte
  /-- `WDR`, the operand of the running operation (10_state R27). -/
  wdr : Word
  /-- `ERR`, the failure latch (10_state R28). -/
  err : Failure
  /-- The result output: the response to the last accepted or refused request, absent while an
  operation runs (00_scope R12, 10_state R39, 30_encoding R96). -/
  result : Option Result
  /-- The output of the `LEXT` port for the last word presented (30_encoding R92). -/
  lextOut : Option Result
  /-- MODEL's own: what the host will do, in order, on the request, `LEXT` and reset ports alike (log 6). -/
  inbox : List HostInput
  /-- The request port's data lines, as of the last request taken (30_encoding R96, 42_write R135, log 17). -/
  wdata : Word
  /-- `cs_line` (10_state R31). -/
  csLine : Level
  /-- MODEL's own: which environment is attached (log 13). -/
  world : World
  /-- The peripheral behind the transport (10_state R33, 20_memory R71). -/
  dev : Device
  /-- MODEL's own: the environment's replies already fixed, in call order (log 2). -/
  replies : List Reply
  /-- MODEL's own: the index of the next free value (log 2). -/
  draws : Nat
  /-- The trace of the run, oldest event first (00_scope R10, 20_memory R61). -/
  trace : List Event
  deriving DecidableEq, Repr, Inhabited

/-- The peripheral before anything is known of it: power-on contents are not in the source (10_state
R39, N13), so every register's value here is a DESIGN CHOICE (log 5). -/
def Device.initial : Device :=
  { mdr0 := 0, mdr1 := 0, str := 0, dtr := 0, cntr := 0, otr := 0, frame := .closed }

/-- The machine right after construction (10_state R39, 70_reset_and_hazards R200): `DW` = 4, `SEQ` =
`IDLE`, no event, no result. The transient registers are unspecified there (DESIGN CHOICE, log 4); the
line is high by the precondition of R204 (log 5). -/
def State.reset : State :=
  { dw := Config.resetWidth
    seq := .idle
    acc := 0
    idx := 0
    opr := 0
    wdr := 0
    err := .transportFailure
    result := none
    lextOut := none
    inbox := []
    wdata := 0
    csLine := .high
    world := .arbitrary
    dev := Device.initial
    replies := []
    draws := 0
    trace := [] }

end Sys2Proof.Machine
end

