-- ==== Sys2Proof/Machine/Operands.lean ====
section
/-!
DEFINITION. Operand assembly: the byte-width multiplexer, the accumulator step, payload lengths, and
the width formula (30_encoding R84, R91; 20_memory R78; 42_write R138).
-/

namespace Sys2Proof.Machine

/-- `DW` is one of 1, 2, 3, 4 (10_state R21). -/
def widthValid (dw : Width) : Bool := 1 ≤ dw.toNat && dw.toNat ≤ 4

/-- The frame format of a command byte (30_encoding R82). A byte outside the table has no format;
the sequencer never holds one in flight (log 20). -/
def formatOf (code : Byte) : Format :=
  match rowOf code with
  | some r => r.format
  | none => .commandOnly

/-- The operation reads `DW` to size its payload (10_state R21, R30; 60_exceptions R173). -/
def readsWidth : Format → Bool
  | .readWord | .writeWord => true
  | .commandOnly | .readByte | .writeByte => false

/-- The payload is received, not sent (20_memory R56). -/
def isRead : Format → Bool
  | .readByte | .readWord => true
  | .commandOnly | .writeByte | .writeWord => false

/-- `n`, the number of payload bytes of a frame: 0, 1 or `DW` (30_encoding R84, R90; 20_memory R56). -/
def payloadLength (f : Format) (dw : Width) : Nat :=
  match f with
  | .commandOnly => 0
  | .readByte | .writeByte => 1
  | .readWord | .writeWord => dw.toNat

/-- `TxByte(v, w, i)`: byte number `w - 1 - i` of `v`, most significant first (30_encoding R91). -/
def txByte (v : Word) (w i : Nat) : Byte := (v >>> (8 * (w - 1 - i))).setWidth 8

/-- One accumulator step, `value = (value << 8) | received_byte` (30_encoding R87, 10_state R24). -/
def accStep (acc : Word) (rx : Byte) : Word := (acc <<< 8) ||| rx.setWidth 32

/-- `Assemble`: the accumulator steps from zero over the received bytes in order (30_encoding R91). -/
def assemble (rs : List Byte) : Word := rs.foldl accStep 0

/-- The byte sent in payload transfer `i` of an operation: the dummy byte of a read, the multiplexer's
byte of a write (30_encoding R87, R88, R90). -/
def payloadByte (f : Format) (dw : Width) (wdr : Word) (i : Nat) : Byte :=
  if isRead f then Config.dummyByte else txByte wdr (payloadLength f dw) i

/-- All payload bytes of a frame in the order sent. -/
def payloadBytes (f : Format) (dw : Width) (wdr : Word) : List Byte :=
  (List.range (payloadLength f dw)).map (payloadByte f dw wdr)

/-- `4 - (value & 0x03)`, the width a Mode Register 1 value selects (42_write R138, conflict C1). -/
def widthOfMdr1 (value : Byte) : Width := BitVec.ofNat 3 (4 - (value &&& 0x03#8).toNat)

/-- The byte operand of a request, `WDR[7:0]` (42_write R136). -/
def byteOperand (wdr : Word) : Byte := wdr.setWidth 8

/-- The write-data lines with an 8-bit operand in `[7:0]` and the ignored bits above as they are
(20_memory R57, 42_write R137). -/
def withByteOperand (wdata : Word) (value : Byte) : Word :=
  (wdata &&& 0xFFFFFF00#32) ||| value.setWidth 32

/-- Byte `b` put in place of transferred byte number `i` of `w`: bits `[8(w-1-i)+7 : 8(w-1-i)]`
(20_memory R75). -/
def putByte (v : Word) (w i : Nat) (b : Byte) : Word :=
  (v &&& ~~~((0xFF#32) <<< (8 * (w - 1 - i)))) ||| (b.setWidth 32 <<< (8 * (w - 1 - i)))

end Sys2Proof.Machine
end

