-- ==== Sys2Proof/Machine/Device.lean ====
section
/-!
DEFINITION. The reference peripheral `Dev` (20_memory R71 to R76): an assumption about the environment
that a state may carry (log 13), never a part of the engine. `k` is the index of the free values a
function may use for what the spec leaves unspecified.
-/

namespace Sys2Proof.Machine

/-- `w'`, the peripheral's own width (20_memory R71). -/
def Device.width (d : Device) : Nat := 4 - (d.mdr1 &&& 0x03#8).toNat

/-- Every register at a value of which nothing is known (U4, U12, 60_exceptions R180, log 14). -/
def Device.unspecified (k : Nat) (d : Device) : Device :=
  { d with
    mdr0 := Config.freeBits 8 k
    mdr1 := Config.freeBits 8 (k + 1)
    str := Config.freeBits 8 (k + 2)
    dtr := Config.freeBits 32 k
    cntr := Config.freeBits 32 (k + 1)
    otr := Config.freeBits 32 (k + 2) }

/-- The peripheral no longer knows where it stands in a frame. -/
def Device.loseTrack (k : Nat) (d : Device) : Device := { d.unspecified k with frame := .lost }

/-- A clear takes effect on the command byte (20_memory R73). `DTR` and `OTR` have no clear (40_clear
R115). -/
def Device.clear (r : PReg) (d : Device) : Device :=
  match r with
  | .mdr0 => { d with mdr0 := Config.clearValue.setWidth 8 }
  | .mdr1 => { d with mdr1 := Config.clearValue.setWidth 8 }
  | .str => { d with str := Config.clearValue.setWidth 8 }
  | .cntr => { d with cntr := Config.clearValue }
  | .dtr | .otr => d

/-- A load takes effect on the command byte (20_memory R76): `CNTR <- DTR`, `OTR <- CNTR`. -/
def Device.load (r : PReg) (d : Device) : Device :=
  match r with
  | .cntr => { d with cntr := d.dtr }
  | .otr => { d with otr := d.cntr }
  | .mdr0 | .mdr1 | .dtr | .str => d

/-- What the command byte does (20_memory R72): clears and loads act, reads and writes wait for their
payload; a byte outside the table is unspecified. -/
def Device.command (k : Nat) (tx : Byte) (d : Device) : Device :=
  match rowOf tx with
  | none => d.loseTrack k
  | some row =>
    match row.action with
    | .clear => { d.clear row.reg with frame := .payload tx 0 }
    | .load => { d.load row.reg with frame := .payload tx 0 }
    | .read | .write => { d with frame := .payload tx 0 }

/-- The byte returned in payload transfer `i` of a read of `r`; `rx`, any byte, where it is unspecified
(20_memory R74). -/
def Device.readByte (r : PReg) (i : Nat) (rx : Byte) (d : Device) : Byte :=
  match r with
  | .mdr0 => if i = 0 then d.mdr0 else rx
  | .mdr1 => if i = 0 then d.mdr1 else rx
  | .str => if i = 0 then d.str else rx
  | .cntr => if i < d.width then txByte d.cntr d.width i else rx
  | .otr => if i < d.width then txByte d.otr d.width i else rx
  | .dtr => rx

/-- What payload byte `i` of a write to `r` does (20_memory R75): byte 0 replaces a mode register;
bytes `0 .. w'-1` replace the active bits of `DTR`, byte 0 also zeroing the rest; a byte beyond the
width leaves `DTR` unspecified. -/
def Device.writeByte (k : Nat) (r : PReg) (i : Nat) (tx : Byte) (d : Device) : Device :=
  match r with
  | .mdr0 => if i = 0 then { d with mdr0 := tx } else d
  | .mdr1 => if i = 0 then { d with mdr1 := tx } else d
  | .dtr =>
    if i < d.width then { d with dtr := putByte (if i = 0 then 0 else d.dtr) d.width i tx }
    else { d with dtr := Config.freeBits 32 k }
  | .cntr | .otr | .str => d

/-- One byte exchanged with the peripheral: what it returns and what it becomes. A byte outside a
frame, a byte of a lost frame, and a payload byte of a command-only frame are unspecified (20_memory
R72, U12, log 14). -/
def Device.exchange (k : Nat) (tx rx : Byte) (d : Device) : Byte × Device :=
  match d.frame with
  | .closed | .lost => (rx, d.loseTrack k)
  | .command => (rx, d.command k tx)
  | .payload cmd i =>
    match rowOf cmd with
    | none => (rx, d.loseTrack k)
    | some row =>
      match row.action with
      | .clear | .load => (rx, d.loseTrack k)
      | .read => (d.readByte row.reg i rx, { d with frame := .payload cmd (i + 1) })
      | .write => (rx, { d.writeByte k row.reg i tx with frame := .payload cmd (i + 1) })

/-- A successful `CsLow()`: it starts a frame only from a high line (20_memory R72); on a low line the
peripheral sees no selecting edge (70_reset_and_hazards R204, R215, U12). -/
def Device.select (line : Level) (d : Device) : Device :=
  match line with
  | .high => { d with frame := .command }
  | .low => { d with frame := .lost }

/-- A successful `CsHigh()`: it ends the frame (20_memory R72). A `WR_DTR` frame that ends after fewer
than `w'` payload bytes leaves `DTR` unspecified (R75); a lost frame leaves every register so. -/
def Device.deselect (k : Nat) (d : Device) : Device :=
  match d.frame with
  | .closed | .command => { d with frame := .closed }
  | .lost => { d.unspecified k with frame := .closed }
  | .payload cmd i =>
    if formatOf cmd = .writeWord ∧ i < d.width then
      { d with dtr := Config.freeBits 32 k, frame := .closed }
    else { d with frame := .closed }

/-- A failed `CsLow()`: whether the peripheral was selected is unknown (60_exceptions R176, R180, U4, log
14). -/
def Device.selectFailed (k : Nat) (d : Device) : Device := d.loseTrack k

/-- A failed transfer: what reached the peripheral is unknown (60_exceptions R180, U4). -/
def Device.transferFailed (k : Nat) (d : Device) : Device := d.loseTrack k

/-- A failed `CsHigh()`: the frame, if there is one, is cut short (U4). -/
def Device.deselectFailed (k : Nat) (d : Device) : Device :=
  match d.frame with
  | .closed => d
  | .command | .payload _ _ | .lost => d.loseTrack k

end Sys2Proof.Machine
end

