-- ==== Sys2Proof/Machine/Flags.lean ====
section
/-!
DEFINITION. There are no flags (10_state R38). What the engine has in their place: the response's
status code and data (30_encoding R96, 60_exceptions R170) and the sign-bit test and masks of the
sign-extension mux (44_sign_extend R161).
-/

namespace Sys2Proof.Machine

/-- The code of a failure kind (60_exceptions R170, decision D10). -/
def failureCode : Failure → BitVec 3
  | .transportFailure => 1#3
  | .pinFailure => 2#3
  | .invalidWidthState => 3#3
  | .illegalOp => 4#3

/-- The 3-bit `status` of a response (60_exceptions R170). -/
def statusCode : Result → BitVec 3
  | .done | .byte _ | .word _ => 0#3
  | .err f => failureCode f

/-- The 32-bit `rdata` of a response: the word, or the byte zero-extended (20_memory R57, 30_encoding
R96); where the result carries no value the output is `free`, any value (U7, log 23). -/
def resultData (free : Word) : Result → Word
  | .word w => w
  | .byte b => b.setWidth 32
  | .done | .err _ => free

/-- The response on the host port, once there is one: `(status, rdata)` (30_encoding R96). -/
def State.response (s : State) : Option (BitVec 3 × Word) :=
  s.result.map fun r => (statusCode r, resultData (Config.freeOutput (2 * s.draws)) r)

/-- The `LEXT` port's output word and fault line (30_encoding R92; D24 for the word on a fault). -/
def State.lextPort (s : State) : Option (Word × Bool) :=
  s.lextOut.map fun r => (resultData (Config.freeOutput (2 * s.draws + 1)) r, statusCode r != 0#3)

/-- `msb`: bit `8*DW - 1` of `v` (44_sign_extend R161). -/
def signBit (v : Word) (w : Nat) : Bool := ((v >>> (8 * w - 1)) &&& 1#32) == 1#32

/-- `SIGN_MASK`, the three constants of 44_sign_extend R161; no other width has one (R162). -/
def signMask : Nat → Option Word
  | 1 => some 0xFFFFFF00#32
  | 2 => some 0xFFFF0000#32
  | 3 => some 0xFF000000#32
  | _ => none

/-- `LEXT(v)` at width `dw` (44_sign_extend R161): the validity of the width is tested first (R165,
conflict C4). -/
def signExtend (dw : Width) (v : Word) : Result :=
  if widthValid dw then
    match signMask dw.toNat with
    | none => .word v
    | some m => if signBit v dw.toNat then .word (v ||| m) else .word v
  else .err .invalidWidthState

end Sys2Proof.Machine
end

