-- ==== Sys2Proof/Machine/Ops.lean ====
section
/-!
DEFINITION. The named operations on the state: the three calls to the environment (00_scope R9), the
sequencer (30_encoding R90), the shared handling of a failure (60_exceptions R174 to R176), acceptance
of a request (R96) and reset (70_reset_and_hazards R200, R201).
-/

namespace Sys2Proof.Machine

/-- The free-value counter moves on. -/
def State.advance (s : State) : State := { s with draws := s.draws + Config.drawStride }

/-- The call is answered: its event joins the trace (00_scope R10). -/
def State.emit (e : Event) (s : State) : State := { s with trace := s.trace ++ [e] }

/-- The reference peripheral, where it is attached, sees what happened (log 13). -/
def State.onDevice (f : Device → Device) (s : State) : State :=
  match s.world with
  | .arbitrary => s
  | .reference => { s with dev := f s.dev }

/-- The environment's reply to the next call: the script's, or a draw where the script is silent about
it (00_scope R3c, log 2). -/
def State.nextReply (s : State) : Reply × State :=
  match s.replies with
  | r :: rest => (r, { s with replies := rest })
  | [] => (Config.freeReply s.draws, s.advance)

/-- What a call came to, with the state after it. -/
inductive Called where
  /-- Answered with success; `rx` is the byte a transfer received. -/
  | ok (rx : Byte) (s : State)
  /-- Answered with failure. -/
  | fail (s : State)
  /-- Not answered. -/
  | silent (s : State)
  deriving Repr

/-- `CsLow()` (00_scope R9): success takes the line low (10_state R31); after a failure the line's
level (U5) and the peripheral (60_exceptions R180, U4) are unspecified. Not answered, it has done nothing
(DESIGN CHOICE, log 3). -/
def State.csLowCall (s : State) : Called :=
  match s.nextReply with
  | (.ok rx, t) =>
    .ok rx (({ t.onDevice (Device.select t.csLine) with csLine := .low }).emit .csLow).advance
  | (.fail, t) =>
    .fail (({ t.onDevice (Device.selectFailed t.draws) with
      csLine := Config.freeLevel t.draws }).emit .csLowFail).advance
  | (.silent, t) => .silent t

/-- `CsHigh()` (00_scope R9): success takes the line high (10_state R31); after a failure the line's
level is unspecified (U5) and the frame is cut short (U4). Not answered, it has done nothing (DESIGN
CHOICE, log 3). -/
def State.csHighCall (s : State) : Called :=
  match s.nextReply with
  | (.ok rx, t) =>
    .ok rx (({ t.onDevice (Device.deselect t.draws) with csLine := .high }).emit .csHigh).advance
  | (.fail, t) =>
    .fail (({ t.onDevice (Device.deselectFailed t.draws) with
      csLine := Config.freeLevel t.draws }).emit .csHighFail).advance
  | (.silent, t) => .silent t

/-- The byte received in a transfer: the reply's byte, unless the reference peripheral is attached and
defines another (20_memory R74). -/
def State.received (tx rx : Byte) (s : State) : Byte :=
  match s.world with
  | .arbitrary => rx
  | .reference => (s.dev.exchange s.draws tx rx).1

/-- `Xfer(tx)` (00_scope R9): one byte out, one byte in. Not answered, it has done nothing (DESIGN CHOICE,
log 3). -/
def State.xferCall (tx : Byte) (s : State) : Called :=
  match s.nextReply with
  | (.ok rx, t) =>
    .ok (t.received tx rx)
      ((t.onDevice fun d => (d.exchange t.draws tx rx).2).emit
        (.xfer tx (t.received tx rx))).advance
  | (.fail, t) => .fail ((t.onDevice (Device.transferFailed t.draws)).emit (.xferFail tx)).advance
  | (.silent, t) => .silent t

/-- A result is delivered (30_encoding R96). -/
def State.deliver (r : Result) (s : State) : State := { s with result := some r }

/-- A result is delivered without an operation having run: as after an operation, what the data output shows
with it is a free value of its own (30_encoding R96, U7, log 23). -/
def State.answer (r : Result) (s : State) : State := (s.deliver r).advance

/-- The transient registers hold nothing the spec defines (10_state R20, R24, R39; U8, log 4). -/
def State.forget (s : State) : State :=
  State.advance { s with
    acc := Config.freeBits 32 s.draws
    idx := Config.freeBits 2 s.draws
    opr := Config.freeBits 8 s.draws
    wdr := Config.freeBits 32 (s.draws + 1)
    err := Config.freeFailure s.draws }

/-- The operation ends: its result is delivered, `SEQ` is `IDLE`, and the transient registers lose
their meaning (00_scope R12, 10_state R26). -/
def State.finish (r : Result) (s : State) : State := ({ s with seq := .idle }.deliver r).forget

/-- The first failure of an operation before its closing `CsHigh()` (60_exceptions R175 steps 1 and 2):
its kind is latched and the engine goes to `ABORT`. -/
def State.abort (f : Failure) (s : State) : State := { s with err := f, seq := .abort }

/-- Payload length of the running operation (30_encoding R90). -/
def State.payloadLen (s : State) : Nat := payloadLength (formatOf s.opr) s.dw

/-- Success in phase `CMD` (30_encoding R90). -/
def State.afterCommand (s : State) : State :=
  if s.payloadLen = 0 then { s with seq := .desel }
  else { s with seq := .data, idx := 0, acc := if isRead (formatOf s.opr) then 0 else s.acc }

/-- Success in phase `DATA` (30_encoding R90): a read shifts the received byte into `ACC`; a write
discards it (R86). -/
def State.afterData (rx : Byte) (s : State) : State :=
  let t := if isRead (formatOf s.opr) then { s with acc := accStep s.acc rx } else s
  if t.idx.toNat + 1 < t.payloadLen then { t with idx := t.idx + 1 } else { t with seq := .desel }

/-- The value in `Ok(..)` (30_encoding R82): a byte, the accumulated word, or nothing. -/
def okResult (f : Format) (acc : Word) : Result :=
  match f with
  | .readByte => .byte (acc.setWidth 8)
  | .readWord => .word acc
  | .commandOnly | .writeByte | .writeWord => .done

/-- The commit of a successful operation (30_encoding R90): `WR_MDR1` sets `DW` (42_write R138); no
other operation writes it (10_state R21). -/
def State.commit (s : State) : State :=
  if s.opr = 0x90#8 then { s with dw := widthOfMdr1 (byteOperand s.wdr) } else s

/-- Success in phase `DESEL` (30_encoding R90). -/
def State.succeed (s : State) : State := s.commit.finish (okResult (formatOf s.opr) s.acc)

/-- What one row of the sequencer's table comes to. -/
inductive Tick where
  /-- The call of the phase was answered. -/
  | moved (s : State)
  /-- There is no call, or it has not been answered: the engine stays in its phase (60_exceptions R189). -/
  | waiting (s : State)
  deriving Repr

/-- One row of the sequencer's table (30_encoding R90) with its abort column (60_exceptions R175). -/
def tick (s : State) : Tick :=
  match s.seq with
  | .idle => .waiting s
  | .sel =>
    match s.csLowCall with
    | .ok _ t => .moved { t with seq := .cmd }
    | .fail t => .moved (t.abort .pinFailure)
    | .silent t => .waiting t
  | .cmd =>
    match s.xferCall s.opr with
    | .ok _ t => .moved t.afterCommand
    | .fail t => .moved (t.abort .transportFailure)
    | .silent t => .waiting t
  | .data =>
    match s.xferCall (payloadByte (formatOf s.opr) s.dw s.wdr s.idx.toNat) with
    | .ok rx t => .moved (t.afterData rx)
    | .fail t => .moved (t.abort .transportFailure)
    | .silent t => .waiting t
  | .desel =>
    match s.csHighCall with
    | .ok _ t => .moved t.succeed
    | .fail t => .moved (t.finish (.err .pinFailure))
    | .silent t => .waiting t
  | .abort =>
    match s.csHighCall with
    | .ok _ t | .fail t => .moved (t.finish (.err t.err))
    | .silent t => .waiting t

/-- The sequencer runs until the operation has ended or a call is not answered. -/
def runSequencer : Nat → State → State
  | 0, s => s
  | fuel + 1, s =>
    match s.seq with
    | .idle => s
    | _ =>
      match tick s with
      | .moved t => runSequencer fuel t
      | .waiting t => t

/-- Acceptance (30_encoding R90, R96): both parts of the request are latched, no result is pending, and
the frame begins. -/
def State.accept (code : Byte) (wdr : Word) (s : State) : State :=
  { s with opr := code, wdr := wdr, result := none, seq := .sel }

/-- A request for a bus operation with command byte `code` and operand `wdr`. While an operation runs it
is not accepted and changes nothing (R96, 70_reset_and_hazards R217). An operation that reads an invalid
`DW` is answered `Err(InvalidWidthState)` before any event and with no state change (60_exceptions R173,
R179). Otherwise it is accepted and runs. -/
def State.request (code : Byte) (wdr : Word) (s : State) : State :=
  if s.seq ≠ .idle then s
  else if readsWidth (formatOf code) && !widthValid s.dw then s.answer (.err .invalidWidthState)
  else runSequencer Config.callLimit (s.accept code wdr)

/-- A select code that names no operation: `Err(IllegalOp)`, no call, no state change (30_encoding R93). -/
def State.refuse (s : State) : State := s.answer (.err .illegalOp)

/-- The host's next action is taken from the port; a request puts its data on the data lines. -/
def State.present (i : HostInput) (rest : List HostInput) (s : State) : State :=
  match i with
  | .request _ wdata => { s with inbox := rest, wdata := wdata }
  | .lext _ | .reset | .quiet => { s with inbox := rest }

/-- The engine's registers and outputs at their values after construction, the transient ones
unspecified (10_state R39, 70_reset_and_hazards R200). -/
def State.construct (s : State) : State :=
  State.forget { s with dw := Config.resetWidth, seq := .idle, result := none, lextOut := none }

/-- The reset input (70_reset_and_hazards R201): the effect of construction, with no event. Where it cuts
an operation short, the line and the peripheral are left unspecified (U11, log 10). -/
def State.resetInput (s : State) : State :=
  if s.seq = .idle then s.construct
  else
    (({ s.onDevice (Device.loseTrack s.draws) with csLine := Config.freeLevel s.draws }).advance).construct

/-- `OPR` names an operation whose payload length is defined. -/
def State.operationCoherent (s : State) : Bool :=
  (rowOf s.opr).isSome && (!readsWidth (formatOf s.opr) || widthValid s.dw)

/-- The registers of a running operation are ones that acceptance or a transition leaves (30_encoding
R90): `OPR` names an operation, `DW` is valid if the operation reads it, and in `DATA` there is a payload
byte number `IDX` (log 20). -/
def State.coherent (s : State) : Bool :=
  match s.seq with
  | .idle => true
  | .data => s.operationCoherent && decide (s.idx.toNat < s.payloadLen)
  | .sel | .cmd | .desel | .abort => s.operationCoherent

/-- A running operation goes on; with none running, nothing happens (log 26). -/
def State.resume (s : State) : Host.Outcome State Fault Refusal :=
  if s.coherent then .next (runSequencer Config.callLimit s) else .fault .sequencerIncoherent

/-- What the host's next action asks of the engine now: a request is held back while an operation runs
(30_encoding R96, 70_reset_and_hazards R217). -/
def HostInput.waits (i : HostInput) (p : Phase) : Bool :=
  match i with
  | .request _ _ => p != .idle
  | .lext _ | .reset | .quiet => false

end Sys2Proof.Machine
end

