-- ==== Sys2Proof/Machine/Clear.lean ====
section
/-!
DEFINITION. The four register clears (40_clear R110 to R114): one command-only frame each; `DW` neither
read nor written.
-/

namespace Sys2Proof.Machine

/-- `CLR_MDR0`: `Command(0x08)` (40_clear R111). -/
def execClrMdr0 (s : State) : Host.Outcome State Fault Refusal := .next (s.request 0x08#8 s.wdata)

/-- `CLR_MDR1`: `Command(0x10)` (40_clear R112); `DW` stays as it is. -/
def execClrMdr1 (s : State) : Host.Outcome State Fault Refusal := .next (s.request 0x10#8 s.wdata)

/-- `CLR_CNTR`: `Command(0x20)` (40_clear R113). -/
def execClrCntr (s : State) : Host.Outcome State Fault Refusal := .next (s.request 0x20#8 s.wdata)

/-- `CLR_STR`: `Command(0x30)` (40_clear R114). -/
def execClrStr (s : State) : Host.Outcome State Fault Refusal := .next (s.request 0x30#8 s.wdata)

end Sys2Proof.Machine
end

