-- ==== Sys2Proof/Machine/Extend.lean ====
section
/-!
DEFINITION. Sign extension (44_sign_extend R160, R161): combinational, on a port of its own, at any time.
-/

namespace Sys2Proof.Machine

/-- `LEXT v` (44_sign_extend R161): a function of `v` and `DW` as it stands, also while an operation
runs (30_encoding R92). It emits no event and writes nothing but its own output; the free-value counter moves
on, so that the output word of each fault is a free value of its own (D24, log 23). -/
def execLext (v : Word) (s : State) : Host.Outcome State Fault Refusal :=
  .next (State.advance { s with lextOut := some (signExtend s.dw v) })

end Sys2Proof.Machine
end

