-- ==== Sys2Proof/Machine/Load.lean ====
section
/-!
DEFINITION. The two loads (43_load R150 to R152): one command-only frame each.
-/

namespace Sys2Proof.Machine

/-- `LOAD_CNTR`: `Command(0xE0)` (43_load R151). -/
def execLoadCntr (s : State) : Host.Outcome State Fault Refusal := .next (s.request 0xE0#8 s.wdata)

/-- `LOAD_OTR`: `Command(0xE8)` (43_load R152). -/
def execLoadOtr (s : State) : Host.Outcome State Fault Refusal := .next (s.request 0xE8#8 s.wdata)

end Sys2Proof.Machine
end

