-- ==== Sys2Proof/Machine/Read.lean ====
section
/-!
DEFINITION. The five register reads (41_read R120 to R128): one byte from the mode and status registers,
`DW` bytes, most significant first, from the counter and the output latch.
-/

namespace Sys2Proof.Machine

/-- `RD_MDR0`: `ReadByte(0x48)` (41_read R126). -/
def execRdMdr0 (s : State) : Host.Outcome State Fault Refusal := .next (s.request 0x48#8 s.wdata)

/-- `RD_MDR1`: `ReadByte(0x50)` (41_read R127); `DW` is not updated from the value read. -/
def execRdMdr1 (s : State) : Host.Outcome State Fault Refusal := .next (s.request 0x50#8 s.wdata)

/-- `RD_CNTR`: `ReadWord(0x60)` (41_read R124). -/
def execRdCntr (s : State) : Host.Outcome State Fault Refusal := .next (s.request 0x60#8 s.wdata)

/-- `RD_OTR`: `ReadWord(0x68)` (41_read R125). -/
def execRdOtr (s : State) : Host.Outcome State Fault Refusal := .next (s.request 0x68#8 s.wdata)

/-- `RD_STR`: `ReadByte(0x70)` (41_read R128). -/
def execRdStr (s : State) : Host.Outcome State Fault Refusal := .next (s.request 0x70#8 s.wdata)

end Sys2Proof.Machine
end

