-- ==== Sys2Proof/Machine/Write.lean ====
section
/-!
DEFINITION. The three register writes (42_write R135 to R140). `WR_MDR1` commits the new `DW` when its
closing `CsHigh()` has succeeded (`State.commit`).
-/

namespace Sys2Proof.Machine

/-- `WR_MDR0 value`: `WriteByte(0x88, value)` (42_write R137). -/
def execWrMdr0 (value : Byte) (s : State) : Host.Outcome State Fault Refusal :=
  .next (s.request 0x88#8 (withByteOperand s.wdata value))

/-- `WR_MDR1 value`: `WriteByte(0x90, value)`, then `DW <- 4 - (value & 0x03)` (42_write R138). -/
def execWrMdr1 (value : Byte) (s : State) : Host.Outcome State Fault Refusal :=
  .next (s.request 0x90#8 (withByteOperand s.wdata value))

/-- `WR_DTR v`: `WriteWord(0x98, v)` (42_write R140). -/
def execWrDtr (v : Word) (s : State) : Host.Outcome State Fault Refusal := .next (s.request 0x98#8 v)

end Sys2Proof.Machine
end

