-- ==== Sys2Proof/Machine/Dispatch.lean ====
section
/-! DEFINITION. One arm per operation of the opcode table (30_encoding R82, R92). -/

namespace Sys2Proof.Machine

def exec (i : Instr) (s : State) : Host.Outcome State Fault Refusal :=
  match i with
  | .clrMdr0 => Sys2Proof.Machine.execClrMdr0 s
  | .clrMdr1 => Sys2Proof.Machine.execClrMdr1 s
  | .clrCntr => Sys2Proof.Machine.execClrCntr s
  | .clrStr => Sys2Proof.Machine.execClrStr s
  | .rdMdr0 => Sys2Proof.Machine.execRdMdr0 s
  | .rdMdr1 => Sys2Proof.Machine.execRdMdr1 s
  | .rdCntr => Sys2Proof.Machine.execRdCntr s
  | .rdOtr => Sys2Proof.Machine.execRdOtr s
  | .rdStr => Sys2Proof.Machine.execRdStr s
  | .wrMdr0 value => Sys2Proof.Machine.execWrMdr0 value s
  | .wrMdr1 value => Sys2Proof.Machine.execWrMdr1 value s
  | .wrDtr v => Sys2Proof.Machine.execWrDtr v s
  | .loadCntr => Sys2Proof.Machine.execLoadCntr s
  | .loadOtr => Sys2Proof.Machine.execLoadOtr s
  | .lext v => Sys2Proof.Machine.execLext v s

end Sys2Proof.Machine
end

