-- ==== Sys2Proof/Machine/Step.lean ====
section
/-!
DEFINITION. One step: the host's next action, or, where there is none that can be taken, the running
operation (log 1).
-/

namespace Sys2Proof.Machine

/-- One step of the machine. The host's next action is taken if it can be (R96, R92, R201): reset, or a
presentation that the decoder reads and `exec` runs, or a select code that names no operation and is
refused (R93). With no action, or with a request that must wait, a running operation goes on. The three ports
share one queue, which says in what order the host uses them (DESIGN CHOICE, log 6). -/
def step (s : State) : Host.Outcome State Fault Refusal :=
  match s.inbox with
  | [] => s.resume
  | i :: rest =>
    if HostInput.waits i s.seq then s.resume
    else
      match decode i with
      | .ok instr => exec instr (s.present i rest)
      | .error (.illegalOp _) => .next (s.present i rest).refuse
      | .error .resetInput => .next (s.present i rest).resetInput
      | .error .nothingPresented => (s.present i rest).resume

/-- `s` with the table word presented by the host as its next action (logs 6, 7). A request is taken
only in `IDLE` (30_encoding R96), so the sequencer is put there for one. -/
def State.withFetchWord (s : State) (nbits w : Nat) : State :=
  { s with
    inbox := hostInputOfTableWord nbits w :: s.inbox
    seq := if HostInput.waits (hostInputOfTableWord nbits w) s.seq then .idle else s.seq }

end Sys2Proof.Machine
end

