-- ==== Sys2Proof/Machine/Frames.lean ====
section
/-!
DEFINITION. A bus operation as a pure function of its bytes and the environment's answers, as conflict C5
allows: the frame pseudocode of 30_encoding R87 to R89 with the failure traces of 60_exceptions R175. The
machine does not run this; statements compare the sequencer with it.
-/

namespace Sys2Proof.Machine

/-- What a frame comes to: its events, the bytes received in its transfers or the failure it reports, and
the replies it did not use. -/
structure FrameOutcome where
  events : List Event
  outcome : Except Failure (List Byte)
  rest : List Reply

/-- The frame's closing `CsHigh()`, with `received` the bytes received so far. A failure there ends the
operation with no further call (60_exceptions R175 step 3). -/
def closeFrame (received : List Byte) : List Reply → Option FrameOutcome
  | .ok _ :: rest => some ⟨[.csHigh], .ok received, rest⟩
  | .fail :: rest => some ⟨[.csHighFail], .error .pinFailure, rest⟩
  | _ => none

/-- The one `CsHigh()` after a failure of kind `f`, its answer ignored (60_exceptions R175 step 2). -/
def abortFrame (f : Failure) : List Reply → Option FrameOutcome
  | .ok _ :: rest => some ⟨[.csHigh], .error f, rest⟩
  | .fail :: rest => some ⟨[.csHighFail], .error f, rest⟩
  | _ => none

/-- One more event in front. -/
def FrameOutcome.after (e : Event) (o : FrameOutcome) : FrameOutcome :=
  { o with events := e :: o.events }

/-- The transfers of a frame in order, then its end (30_encoding R87, R88, R89). -/
def transferAll (received : List Byte) : List Byte → List Reply → Option FrameOutcome
  | [], rs => closeFrame received rs
  | tx :: txs, .ok rx :: rs =>
    (transferAll (received ++ [rx]) txs rs).map (FrameOutcome.after (.xfer tx rx))
  | tx :: _, .fail :: rs =>
    (abortFrame .transportFailure rs).map (FrameOutcome.after (.xferFail tx))
  | _ :: _, _ => none

/-- A whole frame that transfers `txs` (30_encoding R84); none if a call is not answered. -/
def frame (txs : List Byte) : List Reply → Option FrameOutcome
  | .ok _ :: rs => (transferAll [] txs rs).map (FrameOutcome.after .csLow)
  | .fail :: rs => (abortFrame .pinFailure rs).map (FrameOutcome.after .csLowFail)
  | _ => none

/-- The bytes an operation puts on the wire at width `dw`, command byte first (30_encoding R82, R84,
R91); `LEXT` puts none (R92). -/
def wireBytes (dw : Width) : Instr → List Byte
  | .clrMdr0 => [0x08#8]
  | .clrMdr1 => [0x10#8]
  | .clrCntr => [0x20#8]
  | .clrStr => [0x30#8]
  | .rdMdr0 => [0x48#8, Config.dummyByte]
  | .rdMdr1 => [0x50#8, Config.dummyByte]
  | .rdCntr => 0x60#8 :: List.replicate dw.toNat Config.dummyByte
  | .rdOtr => 0x68#8 :: List.replicate dw.toNat Config.dummyByte
  | .rdStr => [0x70#8, Config.dummyByte]
  | .wrMdr0 value => [0x88#8, value]
  | .wrMdr1 value => [0x90#8, value]
  | .wrDtr v => 0x98#8 :: (List.range dw.toNat).map (txByte v dw.toNat)
  | .loadCntr => [0xE0#8]
  | .loadOtr => [0xE8#8]
  | .lext _ => []

/-- The value in `Ok(..)` made of the bytes received in the payload transfers (41_read R122, R123). -/
def valueOf (i : Instr) (payload : List Byte) : Result :=
  match i with
  | .rdMdr0 | .rdMdr1 | .rdStr => .byte (payload.headD 0)
  | .rdCntr | .rdOtr => .word (assemble payload)
  | .clrMdr0 | .clrMdr1 | .clrCntr | .clrStr | .wrMdr0 _ | .wrMdr1 _ | .wrDtr _ | .loadCntr
  | .loadOtr | .lext _ => .done

/-- The result of an operation whose frame came to `o`: the byte received with the command byte is
discarded (30_encoding R86). -/
def frameResult (i : Instr) : Except Failure (List Byte) → Result
  | .ok received => valueOf i (received.drop 1)
  | .error f => .err f

/-- `DW` after an operation whose frame came to `o` (42_write R138, 60_exceptions R176). -/
def widthAfter (i : Instr) (dw : Width) : Except Failure (List Byte) → Width
  | .ok _ =>
    match i with
    | .wrMdr1 value => widthOfMdr1 value
    | _ => dw
  | .error _ => dw

/-- The operation sizes its payload by `DW` (10_state R21). -/
def usesWidth : Instr → Bool
  | .rdCntr | .rdOtr | .wrDtr _ => true
  | _ => false

end Sys2Proof.Machine
end

