-- ==== Sys2Proof/Safety.lean ====
section
/-!
DEFINITION. What counts as a sound state and a sound trace, in the words the statements use.
-/

namespace Sys2Proof.Machine

/-- The invariant of the engine: `DW` is legal (10_state R22); a running operation stands at a position of
the sequencer (30_encoding R90); while it runs no result is pending (00_scope R12); and between a
successful `CsLow()` and the answer to the `CsHigh()` the line is low (10_state R31, under exclusive ownership, D25,
log 21, and with a call not yet answered not having moved it, log 3). -/
structure Sound (s : State) : Prop where
  width : widthValid s.dw = true
  position : s.coherent = true
  noResult : s.seq ≠ .idle → s.result = none
  selected : s.seq = .cmd ∨ s.seq = .data ∨ s.seq = .desel → s.csLine = .low

/-- The reference peripheral, where attached, stands in the frame where the sequencer does, unless it has
lost track (20_memory R72, log 14); a call not yet answered has not moved it (log 3). -/
def InStep (s : State) : Prop :=
  s.world = .reference →
    s.dev.frame = .lost ∨
    match s.seq with
    | .cmd => s.dev.frame = .command
    | .data => s.dev.frame = .payload s.opr s.idx.toNat
    | .desel => s.dev.frame = .payload s.opr s.payloadLen
    | .idle | .sel | .abort => True

/-- What an operation does not touch beside `DW`: the host's side and which environment is attached. -/
structure KeepsHostSide (s t : State) : Prop where
  inbox : t.inbox = s.inbox
  wdata : t.wdata = s.wdata
  lextOut : t.lextOut = s.lextOut
  world : t.world = s.world

/-- How far a list of events has come through one frame (30_encoding R84, 60_exceptions R175). -/
inductive Stage where
  /-- Before the frame's `CsLow()`. -/
  | before
  /-- Chip-select asserted, transfers may follow. -/
  | opened
  /-- A call failed: only the `CsHigh()` of the abort sequence may follow. -/
  | aborting
  /-- The frame's one `CsHigh()` was made. -/
  | closed
  /-- No frame of the spec looks like this. -/
  | wrong
  deriving DecidableEq, Repr

/-- One event on. -/
def Stage.next : Stage → Event → Stage
  | .before, .csLow => .opened
  | .before, .csLowFail => .aborting
  | .opened, .xfer _ _ => .opened
  | .opened, .xferFail _ => .aborting
  | .opened, .csHigh => .closed
  | .opened, .csHighFail => .closed
  | .aborting, .csHigh => .closed
  | .aborting, .csHighFail => .closed
  | _, _ => .wrong

/-- Where the sequencer's phase stands in its frame. -/
def Stage.ofPhase : Phase → Stage
  | .sel => .before
  | .cmd | .data | .desel => .opened
  | .abort => .aborting
  | .idle => .closed

/-- The byte sent by the first transfer event, whether it succeeded or failed. -/
def firstSent : List Event → Option Byte
  | [] => none
  | .xfer tx _ :: _ => some tx
  | .xferFail tx :: _ => some tx
  | .csLow :: es | .csLowFail :: es | .csHigh :: es | .csHighFail :: es => firstSent es

/-- Two replies that differ at most in the byte received. -/
def sameAnswer : Reply → Reply → Prop
  | .ok _, .ok _ => True
  | .fail, .fail => True
  | .silent, .silent => True
  | _, _ => False

/-- Two events that differ at most in the byte received. -/
def sameCall : Event → Event → Prop
  | .xfer tx _, .xfer tx' _ => tx = tx'
  | e, e' => e = e'

end Sys2Proof.Machine
end

