-- ==== Sys2Proof/Certificates/Slice0/Obligations.lean ====
section
/-!
DEFINITION. The statements for the provers, each with the rule of spec/ it follows.
-/

open Sys2Proof Sys2Proof.Machine Host

/-! ### Reset, decoding, the step -/

/-- R39, R200: what reset leaves where the spec gives a value; the event trace is empty. -/
def Obligations.ResetLeavesSpecValues : Prop :=
  State.reset.dw = 4#3 ∧ State.reset.seq = .idle ∧ State.reset.result = none ∧
    State.reset.lextOut = none ∧ State.reset.trace = []

/-- R200, R201: the reset input has the effect of construction and emits no event; in `IDLE` it leaves the
line and the peripheral alone. (What it leaves of them in mid-operation is free: log 10.) -/
def Obligations.ResetInputConstructs : Prop :=
  ∀ (s : State) (rest : List HostInput), s.inbox = .reset :: rest →
    ∃ t, step s = .next t ∧ t.dw = 4#3 ∧ t.seq = .idle ∧ t.result = none ∧ t.lextOut = none ∧
      t.trace = s.trace ∧ t.replies = s.replies ∧ t.inbox = rest ∧ t.wdata = s.wdata ∧
      t.world = s.world ∧ (s.seq = .idle → t.csLine = s.csLine ∧ t.dev = s.dev)

/-- The invariants hold after reset, whichever environment is attached. -/
def Obligations.ResetIsSound : Prop :=
  Sound State.reset ∧ ∀ w : World, InStep { State.reset with world := w }

/-- R22, R90, R12: from every sound state a step answers a sound state. (The clause on the line rests on two
choices of the model: nothing but the engine moves it, log 21, and a call not yet answered has not moved it, log 3,
which is what keeps it low while the closing `CsHigh()` of `DESEL` is outstanding.) -/
def Obligations.StepKeepsSoundness : Prop :=
  ∀ s : State, Sound s → ∃ t, step s = .next t ∧ Sound t

/-- With the reference peripheral attached, the peripheral's place in the frame (R72) follows the sequencer's phase
(R90) through every step. (The model's choices: a call not yet answered has not moved the peripheral, log 3, which
every state in `CMD`, `DATA` or `DESEL` rests on, and after something the spec gives no behaviour the place is
lost, log 14.) -/
def Obligations.StepKeepsPeripheralInStep : Prop :=
  ∀ s t : State, Sound s → InStep s → step s = .next t → InStep t

/-- R80, R81, R82: the request that encodes an operation decodes to it, and so does every request with the same
select code whose write data agrees with it in the operand's bits: `[7:0]` for the byte writes, all 32 for
`WR_DTR`, none for the others. -/
def Obligations.DecodeOfEncode : Prop :=
  ∀ i : Instr, i.wellFormed = true →
    decode (encode i) = .ok i ∧
    ∀ (op : Byte) (w w' : Word), encode i = .request op w →
      ((∃ v, i = .wrMdr0 v ∨ i = .wrMdr1 v) → w'.setWidth 8 = w.setWidth 8) →
      ((∃ v, i = .wrDtr v) → w' = w) → decode (.request op w') = .ok i

/-- R80 to R84, R91: the bytes on the wire name the operation: at one valid `DW`, two bus operations that send
the same bytes are the same operation, or two `WR_DTR` whose operands agree in the low `8*DW` bits. -/
def Obligations.WireBytesNameTheOperation : Prop :=
  ∀ (dw : Width) (i j : Instr), widthValid dw = true → commandByte i ≠ none →
    wireBytes dw i = wireBytes dw j →
    j = i ∨ ∃ u v, i = .wrDtr u ∧ j = .wrDtr v ∧
      u.toNat % 2 ^ (8 * dw.toNat) = v.toNat % 2 ^ (8 * dw.toNat)

/-- R81, R93, R94: a request decodes exactly when its select code is one of the 14, and then to an
operation with that command byte; the operand is `wdata[7:0]` or `wdata`. -/
def Obligations.RequestDecodesBySelectCode : Prop :=
  ∀ (op : Byte) (wdata : Word),
    (op ∈ selectCodes →
      ∃ i, decode (.request op wdata) = .ok i ∧ commandByte i = some op ∧
        (∀ v, i = .wrMdr0 v ∨ i = .wrMdr1 v → v = wdata.setWidth 8) ∧ (∀ v, i = .wrDtr v → v = wdata)) ∧
    (op ∉ selectCodes → decode (.request op wdata) = .error (.illegalOp op))

/-- The command byte of each of the 14 rows of R82, written bit by bit as a table word, decodes to its operation,
with operand 0 where the row has one; the operand word of the `LEXT` row (R92) to `LEXT` of it; `0x61` (R94) to none.
(How a table word stands for a presentation is the model's choice, log 7.) -/
def Obligations.TableWordsDecode : Prop :=
  [0b00001000, 0b00010000, 0b00100000, 0b00110000, 0b01001000, 0b01010000, 0b01100000, 0b01101000, 0b01110000,
      0b10001000, 0b10010000, 0b10011000, 0b11100000, 0b11101000].map (decodeTableWord 8) =
    [some .clrMdr0, some .clrMdr1, some .clrCntr, some .clrStr, some .rdMdr0, some .rdMdr1, some .rdCntr,
      some .rdOtr, some .rdStr, some (.wrMdr0 0), some (.wrMdr1 0), some (.wrDtr 0), some .loadCntr,
      some .loadOtr] ∧
    decodeTableWord 32 0x9234 = some (.lext 0x9234) ∧ decodeTableWord 8 0b01100001 = none

/-- R83: all 14 codes are distinct and split into action, register and three zero bits. -/
def Obligations.CommandBytesSplit : Prop :=
  (opTable.map OpRow.code).Nodup ∧ opTable.length = 14 ∧
    ∀ r ∈ opTable, r.code.extractLsb' 0 3 = 0b000#3 ∧
      r.code.extractLsb' 6 2 = (match r.action with
        | .clear => 0b00#2 | .read => 0b01#2 | .write => 0b10#2 | .load => 0b11#2) ∧
      r.code.extractLsb' 3 3 = (match r.reg with
        | .mdr0 => 0b001#3 | .mdr1 => 0b010#3 | .dtr => 0b011#3 | .cntr => 0b100#3 | .otr => 0b101#3
        | .str => 0b110#3)

/-- R92, R96: when the host presents an action that decodes to an operation and it need not wait, the step
is `exec` of that operation on the state with the action taken from the port. -/
def Obligations.StepRunsDecoded : Prop :=
  ∀ (s : State) (x : HostInput) (rest : List HostInput) (i : Instr),
    s.inbox = x :: rest → decode x = .ok i → i.wellFormed = true → (s.seq = .idle ∨ ∃ v, x = .lext v) →
    step s = exec i (s.present x rest)

/-- R93: a select code that names no operation makes no call, changes no state of the engine and is
answered `Err(IllegalOp)`. (`advance` moves the model's own free-value counter, log 2, for R96's unspecified data
output.) -/
def Obligations.UnlistedSelectCodeIsRefused : Prop :=
  ∀ (s : State) (op : Byte) (wdata : Word) (rest : List HostInput),
    s.seq = .idle → s.inbox = .request op wdata :: rest → op ∉ selectCodes →
    step s =
      .next (State.advance { s with inbox := rest, wdata := wdata, result := some (.err .illegalOp) })

/-- R96, R217: a request presented while an operation runs is not accepted and not remembered by the
engine: the step is that of the running operation, and the host still presents the request after it. -/
def Obligations.BusyEngineHoldsRequests : Prop :=
  ∀ (s : State) (op : Byte) (wdata : Word) (rest : List HostInput),
    s.seq ≠ .idle → s.inbox = .request op wdata :: rest →
    step s = s.resume ∧ ∀ t, step s = .next t → t.inbox = s.inbox ∧ t.wdata = s.wdata

/-- R61, T12: events are only ever added to the trace, and only by the calls of a running operation: a reset, a word
on the `LEXT` port, a request refused for its select code (R93) or for an invalid `DW` (R173), and a step in `IDLE`
with nothing presented (log 26) add none. -/
def Obligations.TraceOnlyGrows : Prop :=
  ∀ s t : State, step s = .next t →
    (∃ es, t.trace = s.trace ++ es) ∧
    (s.seq = .idle → s.inbox = [] → t.trace = s.trace) ∧
    (∀ x rest, s.inbox = x :: rest →
      (x = .reset ∨ (∃ v, x = .lext v) ∨ (s.seq = .idle ∧ x = .quiet) ∨
        (s.seq = .idle ∧ ∃ op w, x = .request op w ∧ op ∉ selectCodes) ∨
        (s.seq = .idle ∧ widthValid s.dw = false ∧ ∃ i, decode x = .ok i ∧ usesWidth i = true)) →
      t.trace = s.trace)

/-! ### Sign extension -/

/-- R160, R92: `LEXT` completes at any time, also while an operation runs, reads `DW` as it stands, and
changes nothing but its own output. (`advance` moves the model's own free-value counter, log 2, for the output word
of a fault.) -/
def Obligations.LextCompletes : Prop :=
  ∀ (v : Word) (s : State),
    exec (.lext v) s = .next (State.advance { s with lextOut := some (signExtend s.dw v) })

/-- R161: `LEXT` at every width, with the validity of the width tested before anything else: no transport, no
pin and no other part of the engine is used. (`advance` moves the model's own free-value counter, log 2.) -/
def Obligations.SignExtendCases : Prop :=
  ∀ (s : State) (v : Word),
    (s.dw = 1#3 → exec (.lext v) s =
      .next (State.advance { s with lextOut := some (.word (if v.getLsbD 7 then v ||| 0xFFFFFF00#32 else v)) })) ∧
    (s.dw = 2#3 → exec (.lext v) s =
      .next (State.advance { s with lextOut := some (.word (if v.getLsbD 15 then v ||| 0xFFFF0000#32 else v)) })) ∧
    (s.dw = 3#3 → exec (.lext v) s =
      .next (State.advance { s with lextOut := some (.word (if v.getLsbD 23 then v ||| 0xFF000000#32 else v)) })) ∧
    (s.dw = 4#3 → exec (.lext v) s = .next (State.advance { s with lextOut := some (.word v) })) ∧
    (s.dw = 0#3 ∨ s.dw = 5#3 ∨ s.dw = 6#3 ∨ s.dw = 7#3 →
      exec (.lext v) s = .next (State.advance { s with lextOut := some (.err .invalidWidthState) }))

/-- R161, bit by bit: at a legal `DW` the result has ones above the active width where the tested bit is set, and the
bits of `v` everywhere else; at an invalid `DW` it is the failure, for every `v`. No event, and `DW` as it was. -/
def Obligations.LextResultBits : Prop :=
  ∀ (s : State) (v : Word),
    (widthValid s.dw = true →
      ∃ t x, exec (.lext v) s = .next t ∧ t.lextOut = some (.word x) ∧ t.trace = s.trace ∧ t.dw = s.dw ∧
        ∀ n, n < 32 → x.getLsbD n =
          if v.getLsbD (8 * s.dw.toNat - 1) = true ∧ 8 * s.dw.toNat ≤ n then true else v.getLsbD n) ∧
    (widthValid s.dw = false →
      ∃ t, exec (.lext v) s = .next t ∧ t.lextOut = some (.err .invalidWidthState) ∧ t.trace = s.trace ∧
        t.dw = s.dw)

/-- R162: the masks are the three constants, equal to the closed form, and no other width has one. -/
def Obligations.SignMasks : Prop :=
  signMask 1 = some 0xFFFFFF00#32 ∧ signMask 2 = some 0xFFFF0000#32 ∧ signMask 3 = some 0xFF000000#32 ∧
    (∀ w m, signMask w = some m → m = 0xFFFFFFFF#32 <<< (8 * w)) ∧
    ∀ w, w = 0 ∨ 4 ≤ w → signMask w = none

/-- R164: idempotent at every width, identity at full width, sets bits only above the active width. (That it
depends on `v` and `DW` alone is its type.) -/
def Obligations.SignExtendLaws : Prop :=
  ∀ (dw : Width) (v : Word),
    (∀ x, signExtend dw v = .word x → signExtend dw x = .word x ∧ x ||| v = x ∧
      ∀ n, n < 8 * dw.toNat → x.getLsbD n = v.getLsbD n) ∧
    (dw = 4#3 → signExtend dw v = .word v) ∧
    (signExtend dw v = .err .invalidWidthState ↔ widthValid dw = false)

/-- R163: for widths 1 to 3, `LEXT(v)` is the two's-complement extension of the low `8*DW` bits exactly when
the sign bit is set or no bit above the active width is. -/
def Obligations.SignExtendIsTwosComplement : Prop :=
  ∀ (dw : Width) (v : Word), 1 ≤ dw.toNat → dw.toNat ≤ 3 →
    (signExtend dw v = .word ((v.setWidth (8 * dw.toNat)).signExtend 32) ↔
      v.getLsbD (8 * dw.toNat - 1) = true ∨ v >>> (8 * dw.toNat) = 0)

/-! ### The byte-width multiplexer and the width formula -/

/-- R138, R78: `4 - (value & 0x03)` is 1 to 4 and does not depend on bits `[7:2]`. -/
def Obligations.WidthFormula : Prop :=
  ∀ value : Byte, (widthOfMdr1 value).toNat = 4 - (value.extractLsb' 0 2).toNat ∧
    widthValid (widthOfMdr1 value) = true ∧
    ∀ other : Byte, other.extractLsb' 0 2 = value.extractLsb' 0 2 → widthOfMdr1 other = widthOfMdr1 value

/-- R52, R91, T6: the accumulator of at most four received bytes is their big-endian value: byte `i` of `w`
lands where the multiplexer takes byte `i` of `w` from, and no bit above `8*w` is set. -/
def Obligations.AssembleIsBigEndian : Prop :=
  ∀ rs : List Byte, rs.length ≤ 4 →
    (∀ (i : Nat) (h : i < rs.length), txByte (assemble rs) rs.length i = rs[i]) ∧
    (assemble rs).toNat = rs.foldl (fun n r => 256 * n + r.toNat) 0 ∧
    (assemble rs).toNat < 256 ^ rs.length

/-- R57, R91, R140, T7: the payload of `WR_DTR v` at width `w` is the low `8*w` bits of `v`, most significant
byte first; bits above are dropped. -/
def Obligations.WritePayloadIsLowBytes : Prop :=
  ∀ (dw : Width) (v : Word), widthValid dw = true →
    (payloadBytes .writeWord dw v).length = dw.toNat ∧
    (assemble (payloadBytes .writeWord dw v)).toNat = v.toNat % 2 ^ (8 * dw.toNat) ∧
    ∀ u : Word, u.toNat % 2 ^ (8 * dw.toNat) = v.toNat % 2 ^ (8 * dw.toNat) →
      payloadBytes .writeWord dw u = payloadBytes .writeWord dw v

/-! ### The operations, when no call fails -/

/-- R89, R110 to R114, R150 to R152: a clear or a load emits one command-only frame and ends `Ok(())`, at
every `DW`, valid or not, and in every environment; nothing else of the engine or the host's side changes. (That the
peripheral's fields, which stand for nothing in an arbitrary world, do not move there is the model's choice, log 13.) -/
def Obligations.CommandOperationsComplete : Prop :=
  ∀ (s : State) (a b c : Byte) (rest : List Reply) (i : Instr) (code : Byte),
    s.seq = .idle → s.replies = .ok a :: .ok b :: .ok c :: rest →
    (i, code) ∈ [(.clrMdr0, 0x08#8), (.clrMdr1, 0x10#8), (.clrCntr, 0x20#8), (.clrStr, 0x30#8),
      (Instr.loadCntr, 0xE0#8), (.loadOtr, 0xE8#8)] →
    ∃ t, exec i s = .next t ∧ t.seq = .idle ∧ t.result = some .done ∧
      t.trace = s.trace ++ [.csLow, .xfer code b, .csHigh] ∧ t.dw = s.dw ∧ t.csLine = .high ∧
      t.replies = rest ∧ KeepsHostSide s t ∧ (s.world = .arbitrary → t.dev = s.dev)

/-- R122, R126 to R128: a single-byte read returns the byte received in its one dummy transfer, at every `DW`
and in every environment, and writes no persistent register; in an arbitrary environment that byte is the
reply's. (That the peripheral's fields do not move there is the model's choice, log 13.) -/
def Obligations.ByteReadsComplete : Prop :=
  ∀ (s : State) (a b r c : Byte) (rest : List Reply) (i : Instr) (code : Byte),
    s.seq = .idle → s.replies = .ok a :: .ok b :: .ok r :: .ok c :: rest →
    (i, code) ∈ [(.rdMdr0, 0x48#8), (Instr.rdMdr1, 0x50#8), (.rdStr, 0x70#8)] →
    ∃ t rx, exec i s = .next t ∧ t.seq = .idle ∧ t.result = some (.byte rx) ∧
      t.trace = s.trace ++ [.csLow, .xfer code b, .xfer Config.dummyByte rx, .csHigh] ∧
      t.dw = s.dw ∧ t.csLine = .high ∧ t.replies = rest ∧ KeepsHostSide s t ∧
      (s.world = .arbitrary → rx = r ∧ t.dev = s.dev)

/-- R123 to R125: a multi-byte read transfers exactly `DW` dummy bytes and returns the received bytes
assembled most significant first, and writes no persistent register. (That the peripheral's fields do not move in an
arbitrary world is the model's choice, log 13.) -/
def Obligations.WordReadsComplete : Prop :=
  ∀ (s : State) (a b c : Byte) (rxs : List Byte) (rest : List Reply) (i : Instr) (code : Byte),
    s.seq = .idle → widthValid s.dw = true → rxs.length = s.dw.toNat →
    s.replies = .ok a :: .ok b :: (rxs.map .ok ++ .ok c :: rest) →
    (i, code) ∈ [(.rdCntr, 0x60#8), (Instr.rdOtr, 0x68#8)] →
    ∃ t rs, exec i s = .next t ∧ t.seq = .idle ∧ rs.length = s.dw.toNat ∧
      t.result = some (.word (assemble rs)) ∧
      t.trace = s.trace ++ (.csLow :: .xfer code b :: (rs.map (.xfer Config.dummyByte) ++ [.csHigh])) ∧
      t.dw = s.dw ∧ t.csLine = .high ∧ t.replies = rest ∧ KeepsHostSide s t ∧
      (s.world = .arbitrary → rs = rxs ∧ t.dev = s.dev)

/-- R136, R137: `WR_MDR0` sends its byte as it is and ends `Ok(())`, at every `DW` and in every environment,
with no width side effect. (That the peripheral's fields do not move in an arbitrary world is the model's choice, log
13.) -/
def Obligations.WriteMdr0Completes : Prop :=
  ∀ (s : State) (value a b r c : Byte) (rest : List Reply),
    s.seq = .idle → s.replies = .ok a :: .ok b :: .ok r :: .ok c :: rest →
    ∃ t rx, exec (.wrMdr0 value) s = .next t ∧ t.seq = .idle ∧ t.result = some .done ∧
      t.trace = s.trace ++ [.csLow, .xfer 0x88#8 b, .xfer value rx, .csHigh] ∧
      t.dw = s.dw ∧ t.csLine = .high ∧ t.replies = rest ∧ KeepsHostSide s t ∧
      (s.world = .arbitrary → t.dev = s.dev)

/-- R138: `WR_MDR1 value` sends its byte as it is, ends `Ok(())`, and sets `DW` to `4 - (value & 0x03)`,
whatever `DW` was. (That the peripheral's fields do not move in an arbitrary world is the model's choice, log 13.) -/
def Obligations.WriteMdr1SetsWidth : Prop :=
  ∀ (s : State) (value a b r c : Byte) (rest : List Reply),
    s.seq = .idle → s.replies = .ok a :: .ok b :: .ok r :: .ok c :: rest →
    ∃ t rx, exec (.wrMdr1 value) s = .next t ∧ t.seq = .idle ∧ t.result = some .done ∧
      t.trace = s.trace ++ [.csLow, .xfer 0x90#8 b, .xfer value rx, .csHigh] ∧
      t.dw.toNat = 4 - (value &&& 0x03#8).toNat ∧ t.csLine = .high ∧ t.replies = rest ∧
      KeepsHostSide s t ∧ (s.world = .arbitrary → t.dev = s.dev)

/-- R139, R140: `WR_DTR v` sends the low `DW` bytes of `v`, most significant first, and ends `Ok(())`. (That the
peripheral's fields do not move in an arbitrary world is the model's choice, log 13.) -/
def Obligations.WriteDtrCompletes : Prop :=
  ∀ (s : State) (v : Word) (a b c : Byte) (rxs : List Byte) (rest : List Reply),
    s.seq = .idle → widthValid s.dw = true → rxs.length = s.dw.toNat →
    s.replies = .ok a :: .ok b :: (rxs.map .ok ++ .ok c :: rest) →
    ∃ t rs, exec (.wrDtr v) s = .next t ∧ t.seq = .idle ∧ t.result = some .done ∧
      rs.length = s.dw.toNat ∧
      t.trace = s.trace ++ (.csLow :: .xfer 0x98#8 b ::
        (List.zipWith .xfer (payloadBytes .writeWord s.dw v) rs ++ [.csHigh])) ∧
      t.dw = s.dw ∧ t.csLine = .high ∧ t.replies = rest ∧ KeepsHostSide s t ∧
      (s.world = .arbitrary → t.dev = s.dev)

/-- R173, R179: at an invalid `DW` the operations that read it are answered `Err(InvalidWidthState)` before
any event and with no state change of the engine; `LEXT` likewise on its own output. (`advance` moves the model's own
free-value counter, log 2, for the data output of the failure.) -/
def Obligations.InvalidWidthIsRefused : Prop :=
  ∀ (s : State) (v : Word), widthValid s.dw = false →
    (∀ i, i = .rdCntr ∨ i = .rdOtr ∨ i = .wrDtr v → s.seq = .idle →
      exec i s = .next (State.advance { s with result := some (.err .invalidWidthState) })) ∧
    exec (.lext v) s = .next (State.advance { s with lextOut := some (.err .invalidWidthState) })

/-! ### The sequencer in every environment -/

/-- R87 to R90, R174 to R176: for every script of answers that lets the operation end, the sequencer comes to
what the frame pseudocode comes to: the same events, the same result or first failure, the same `DW`, and it
uses the same answers. (That the peripheral's fields do not move in an arbitrary world is the model's choice, log
13.) -/
def Obligations.SequencerMeetsFrame : Prop :=
  ∀ (i : Instr) (code : Byte) (s : State) (o : FrameOutcome),
    commandByte i = some code → s.seq = .idle → s.world = .arbitrary →
    (usesWidth i = true → widthValid s.dw = true) → frame (wireBytes s.dw i) s.replies = some o →
    ∃ t, exec i s = .next t ∧ t.seq = .idle ∧ t.trace = s.trace ++ o.events ∧ t.replies = o.rest ∧
      t.result = some (frameResult i o.outcome) ∧ t.dw = widthAfter i s.dw o.outcome ∧
      t.dev = s.dev ∧ KeepsHostSide s t

/-- R84, R175, T4: whatever the environment does, an accepted operation's events are one frame: one `CsLow()`
call first, one `CsHigh()` call last, transfers between, nothing after a failed one but that `CsHigh()`, and
the first byte sent is the operation's command byte; if the operation has not ended, they are the part of a
frame that its phase says. -/
def Obligations.OperationsEmitOneFrame : Prop :=
  ∀ (i : Instr) (code : Byte) (s : State),
    commandByte i = some code → s.seq = .idle → (usesWidth i = true → widthValid s.dw = true) →
    ∃ t es, exec i s = .next t ∧ t.trace = s.trace ++ es ∧
      es.foldl Stage.next .before = Stage.ofPhase t.seq ∧
      (firstSent es = some code ∨ firstSent es = none)

/-- R175, R189: an operation that waited goes on with its frame where it stood. -/
def Obligations.ResumedOperationsContinueTheirFrame : Prop :=
  ∀ s : State, Sound s → s.seq ≠ .idle →
    ∃ t es, s.resume = .next t ∧ t.trace = s.trace ++ es ∧
      es.foldl Stage.next (Stage.ofPhase s.seq) = Stage.ofPhase t.seq ∧
      (s.seq = .sel ∨ s.seq = .cmd → firstSent es = some s.opr ∨ firstSent es = none)

/-- R90, R189: where every call is answered, with success or failure, an operation ends: at most seven calls
bring the sequencer back to `IDLE` with one result. -/
def Obligations.AnsweredOperationsEnd : Prop :=
  ∀ (i : Instr) (code : Byte) (s : State),
    commandByte i = some code → s.seq = .idle → 7 ≤ s.replies.length → .silent ∉ s.replies →
    ∃ t r, exec i s = .next t ∧ t.seq = .idle ∧ t.result = some r ∧
      s.replies.length ≤ t.replies.length + 7

/-- R189: a call that is not answered leaves the engine in its phase, with no event, no result and every
register as it was. (That a call not yet answered has done nothing, log 3, and that an answer out of the script moves
no free-value counter, log 2, are the model's choices.) -/
def Obligations.UnansweredCallWaits : Prop :=
  ∀ (s : State) (rest : List Reply), Sound s → s.seq ≠ .idle → s.inbox = [] →
    s.replies = .silent :: rest → step s = .next { s with replies := rest }

/-- R61, R189: waiting changes nothing of an operation: cut short by one unanswered call and taken up again, it
comes to what it would have come to without the wait. (The model's choices: a call not yet answered has done nothing,
log 3; and the two runs are equal in their free values and in what the environment answers after the script only because
the same counter draws the same values, log 2, which a real environment need not do.) -/
def Obligations.WaitingDoesNotChangeTheOutcome : Prop :=
  ∀ (i : Instr) (code : Byte) (s t : State) (pre post : List Reply),
    commandByte i = some code → s.seq = .idle → s.inbox = [] → .silent ∉ pre →
    exec i { s with replies := pre ++ .silent :: post } = .next t → t.seq ≠ .idle →
    step t = exec i { s with replies := pre ++ post }

/-- R21, R22, R30, R176, T2, T3: `DW` changes only when a `WR_MDR1` has ended `Ok`, or by a reset. Of every operation:
any failure, any other operation, and an operation that has not ended leave `DW` as it was. Of every step: a new `DW`
is the 4 of the reset input, or that of the `WR_MDR1` just presented, or that of the `WR_MDR1` taken up again after a
wait. -/
def Obligations.OnlyWriteMdr1ChangesWidth : Prop :=
  (∀ (i : Instr) (s t : State), exec i s = .next t →
    t.dw = s.dw ∨
      ∃ value, i = .wrMdr1 value ∧ t.seq = .idle ∧ t.result = some .done ∧ t.dw = widthOfMdr1 value) ∧
  ∀ s t : State, step s = .next t →
    t.dw = s.dw ∨
    (∃ rest, s.inbox = .reset :: rest ∧ t.dw = 4#3) ∨
    (t.seq = .idle ∧ t.result = some .done ∧ ∃ value, t.dw = widthOfMdr1 value ∧
      ((s.seq = .idle ∧ ∃ w rest, s.inbox = .request 0x90#8 w :: rest ∧ value = w.setWidth 8) ∨
        (s.seq ≠ .idle ∧ s.opr = 0x90#8 ∧ value = byteOperand s.wdr)))

/-- R27, R96: acceptance latches both parts of the request, and no result is pending while the first call is
unanswered. (The model's choices: that the line and the peripheral have not moved while `CsLow()` is outstanding, log
3, and what stands in `WDR` above a byte operand and for an operation without one, log 17.) -/
def Obligations.AcceptanceLatchesTheRequest : Prop :=
  ∀ (i : Instr) (code : Byte) (s : State) (rest : List Reply),
    commandByte i = some code → s.seq = .idle → (usesWidth i = true → widthValid s.dw = true) →
    s.replies = .silent :: rest →
    ∃ t, exec i s = .next t ∧ t.seq = .sel ∧ t.opr = code ∧ t.result = none ∧ t.trace = s.trace ∧
      t.dw = s.dw ∧ t.csLine = s.csLine ∧ t.dev = s.dev ∧
      (∀ value, i = .wrMdr0 value ∨ i = .wrMdr1 value →
        t.wdr.setWidth 8 = value ∧ t.wdr >>> 8 = s.wdata >>> 8) ∧
      (∀ v, i = .wrDtr v → t.wdr = v) ∧
      (decode (.request code s.wdata) = .ok i → t.wdr = s.wdata)

/-- R24, R25, R90: in the middle of a multi-byte read, `IDX` counts the bytes received and `ACC` holds them
assembled. (That the line is low while the next transfer is outstanding rests on log 3.) -/
def Obligations.AccumulatorHoldsBytesReceived : Prop :=
  ∀ (i : Instr) (s : State) (a b : Byte) (rxs : List Byte) (rest : List Reply),
    i = .rdCntr ∨ i = .rdOtr → s.seq = .idle → s.world = .arbitrary → widthValid s.dw = true →
    rxs.length < s.dw.toNat → s.replies = .ok a :: .ok b :: (rxs.map .ok ++ .silent :: rest) →
    ∃ t, exec i s = .next t ∧ t.seq = .data ∧ t.idx.toNat = rxs.length ∧ t.acc = assemble rxs ∧
      t.result = none ∧ t.csLine = .low ∧ t.dw = s.dw ∧
      t.trace = s.trace ++ (.csLow :: .xfer (if i = .rdCntr then 0x60#8 else 0x68#8) b ::
        rxs.map (.xfer Config.dummyByte))

/-- R28, R90, R175, R176: the first failure is latched and is what the operation reports. A failed `CsLow()` latches
`PinFailure` in `ERR`, a failed command byte or payload byte `TransportFailure`, and the engine goes to `ABORT`. There
the one `CsHigh()`, answered either way, ends the operation with the latched kind and `DW` unchanged, and the line is
high if it succeeded. A failed closing `CsHigh()` of `DESEL` ends the operation with `PinFailure` and no further
call. -/
def Obligations.FirstFailureIsLatched : Prop :=
  (∀ (i : Instr) (code : Byte) (s : State) (rest : List Reply),
    commandByte i = some code → s.seq = .idle → (usesWidth i = true → widthValid s.dw = true) →
    s.replies = .fail :: .silent :: rest →
    ∃ t, exec i s = .next t ∧ t.seq = .abort ∧ t.err = .pinFailure ∧ t.opr = code ∧ t.result = none ∧
      t.trace = s.trace ++ [.csLowFail] ∧ t.dw = s.dw) ∧
  (∀ (i : Instr) (code a : Byte) (s : State) (rest : List Reply),
    commandByte i = some code → s.seq = .idle → (usesWidth i = true → widthValid s.dw = true) →
    s.replies = .ok a :: .fail :: .silent :: rest →
    ∃ t, exec i s = .next t ∧ t.seq = .abort ∧ t.err = .transportFailure ∧ t.opr = code ∧
      t.result = none ∧ t.trace = s.trace ++ [.csLow, .xferFail code] ∧ t.dw = s.dw) ∧
  (∀ (s : State) (rest : List Reply), s.seq = .data → s.coherent = true →
    s.replies = .fail :: .silent :: rest →
    ∃ t, s.resume = .next t ∧ t.seq = .abort ∧ t.err = .transportFailure ∧ t.opr = s.opr ∧
      t.result = s.result ∧ t.dw = s.dw ∧
      t.trace = s.trace ++ [.xferFail (payloadByte (formatOf s.opr) s.dw s.wdr s.idx.toNat)]) ∧
  (∀ (s : State) (r : Reply) (rest : List Reply), s.seq = .abort → s.coherent = true → r ≠ .silent →
    s.replies = r :: rest →
    ∃ t, s.resume = .next t ∧ t.seq = .idle ∧ t.result = some (.err s.err) ∧ t.dw = s.dw ∧
      t.replies = rest ∧
      (∀ rx, r = .ok rx → t.csLine = .high ∧ t.trace = s.trace ++ [.csHigh]) ∧
      (r = .fail → t.trace = s.trace ++ [.csHighFail])) ∧
  ∀ (s : State) (rest : List Reply), s.seq = .desel → s.coherent = true → s.replies = .fail :: rest →
    ∃ t, s.resume = .next t ∧ t.seq = .idle ∧ t.result = some (.err .pinFailure) ∧ t.dw = s.dw ∧
      t.replies = rest ∧ t.trace = s.trace ++ [.csHighFail]

/-- R86, T11: the byte received with the command byte, and every byte received in a write, a clear or a load,
influence nothing: two environments that differ only in them give the same calls, result and `DW`. (That the two also
answer alike after their scripts is the model's choice, log 2.) -/
def Obligations.DiscardedBytesDoNotMatter : Prop :=
  ∀ (i : Instr) (code : Byte) (s t t' : State) (rs rs' : List Reply),
    commandByte i = some code → s.seq = .idle → s.world = .arbitrary → List.Forall₂ sameAnswer rs rs' →
    (isRead (formatOf code) = true → rs.drop 2 = rs'.drop 2) →
    exec i { s with replies := rs } = .next t → exec i { s with replies := rs' } = .next t' →
    t.seq = t'.seq ∧ t.dw = t'.dw ∧ t.result = t'.result ∧ List.Forall₂ sameCall t.trace t'.trace

/-- R96, R170, R57: the response's status code and data. R92, R96, D24: the `LEXT` port shows the word on `Ok`, and its
fault line is set exactly on `Err`. -/
def Obligations.ResponseCodes : Prop :=
  ∀ s : State,
    (s.result = none → s.response = none) ∧
    (∀ w, s.result = some (.word w) → s.response = some (0#3, w)) ∧
    (∀ b, s.result = some (.byte b) → s.response = some (0#3, b.setWidth 32)) ∧
    (s.result = some .done → s.response.map Prod.fst = some 0#3) ∧
    (s.result = some (.err .transportFailure) → s.response.map Prod.fst = some 1#3) ∧
    (s.result = some (.err .pinFailure) → s.response.map Prod.fst = some 2#3) ∧
    (s.result = some (.err .invalidWidthState) → s.response.map Prod.fst = some 3#3) ∧
    (s.result = some (.err .illegalOp) → s.response.map Prod.fst = some 4#3) ∧
    (s.lextOut = none → s.lextPort = none) ∧
    (∀ w, s.lextOut = some (.word w) → s.lextPort = some (w, false)) ∧
    (∀ r, s.lextOut = some r →
      ∃ word fault, s.lextPort = some (word, fault) ∧ (fault = true ↔ ∃ f, r = .err f))

/-! ### The reference peripheral -/

/-- R73, R110 to R114, R211: attached to the reference peripheral, a clear sets its one register to zero and
leaves the others; `CLR_MDR1` so sets the peripheral's width to 4 and leaves `DW`. (The value zero is the
spec's assumption `CLEAR_VALUE`, log 12.) -/
def Obligations.ClearsResetTheirRegister : Prop :=
  ∀ (s : State) (a b c : Byte) (rest : List Reply),
    s.seq = .idle → s.world = .reference → s.csLine = .high →
    s.replies = .ok a :: .ok b :: .ok c :: rest →
    (∃ t, exec .clrMdr0 s = .next t ∧ t.dev = { s.dev with mdr0 := 0, frame := .closed }) ∧
    (∃ t, exec .clrMdr1 s = .next t ∧ t.dev = { s.dev with mdr1 := 0, frame := .closed } ∧
      t.dev.width = 4 ∧ t.dw = s.dw) ∧
    (∃ t, exec .clrCntr s = .next t ∧ t.dev = { s.dev with cntr := 0, frame := .closed }) ∧
    (∃ t, exec .clrStr s = .next t ∧ t.dev = { s.dev with str := 0, frame := .closed })

/-- R76, R151, R152: `LOAD_CNTR` copies `DTR` to `CNTR`, `LOAD_OTR` copies `CNTR` to `OTR`, and nothing else
of the reference peripheral changes. -/
def Obligations.LoadsCopyRegisters : Prop :=
  ∀ (s : State) (a b c : Byte) (rest : List Reply),
    s.seq = .idle → s.world = .reference → s.csLine = .high →
    s.replies = .ok a :: .ok b :: .ok c :: rest →
    (∃ t, exec .loadCntr s = .next t ∧ t.dev = { s.dev with cntr := s.dev.dtr, frame := .closed }) ∧
    (∃ t, exec .loadOtr s = .next t ∧ t.dev = { s.dev with otr := s.dev.cntr, frame := .closed })

/-- R75, R137, R138: the mode register writes replace their register of the reference peripheral and nothing
else; after `WR_MDR1` the engine's width and the peripheral's agree. -/
def Obligations.ModeWritesReplaceTheirRegister : Prop :=
  ∀ (s : State) (value a b r c : Byte) (rest : List Reply),
    s.seq = .idle → s.world = .reference → s.csLine = .high →
    s.replies = .ok a :: .ok b :: .ok r :: .ok c :: rest →
    (∃ t, exec (.wrMdr0 value) s = .next t ∧ t.dev = { s.dev with mdr0 := value, frame := .closed }) ∧
    (∃ t, exec (.wrMdr1 value) s = .next t ∧ t.dev = { s.dev with mdr1 := value, frame := .closed } ∧
      t.dev.width = t.dw.toNat)

/-- R75: `WR_DTR` at agreeing widths stores the low `8*DW` bits with zeros above, and nothing else. -/
def Obligations.WriteDtrStoresLowBytes : Prop :=
  ∀ (s : State) (v : Word) (a b c : Byte) (rxs : List Byte) (rest : List Reply),
    s.seq = .idle → s.world = .reference → s.csLine = .high → s.dw.toNat = s.dev.width →
    rxs.length = s.dw.toNat → s.replies = .ok a :: .ok b :: (rxs.map .ok ++ .ok c :: rest) →
    ∃ t, exec (.wrDtr v) s = .next t ∧ t.result = some .done ∧
      t.dev = { s.dev with dtr := BitVec.ofNat 32 (v.toNat % 2 ^ (8 * s.dw.toNat)), frame := .closed }

/-- R74, R53: a read returns the register of the reference peripheral and changes none of its registers; a
multi-byte read at a width below the peripheral's returns only the leading bytes, with no failure. -/
def Obligations.ReadsReturnTheRegister : Prop :=
  ∀ (s : State) (a b c : Byte) (rxs : List Byte) (rest : List Reply),
    s.seq = .idle → s.world = .reference → s.csLine = .high →
    (∀ (i : Instr) (value : Byte),
      (i, value) ∈ [(Instr.rdMdr0, s.dev.mdr0), (.rdMdr1, s.dev.mdr1), (.rdStr, s.dev.str)] →
      rxs.length = 1 → s.replies = .ok a :: .ok b :: (rxs.map .ok ++ .ok c :: rest) →
      ∃ t, exec i s = .next t ∧ t.result = some (.byte value) ∧ t.dev = { s.dev with frame := .closed }) ∧
    (∀ (i : Instr) (value : Word), (i, value) ∈ [(Instr.rdCntr, s.dev.cntr), (.rdOtr, s.dev.otr)] →
      1 ≤ s.dw.toNat → s.dw.toNat ≤ s.dev.width →
      rxs.length = s.dw.toNat → s.replies = .ok a :: .ok b :: (rxs.map .ok ++ .ok c :: rest) →
      ∃ t x, exec i s = .next t ∧ t.result = some (.word x) ∧
        x.toNat = value.toNat % 2 ^ (8 * s.dev.width) / 2 ^ (8 * (s.dev.width - s.dw.toNat)) ∧
        t.dev = { s.dev with frame := .closed })

/-- R77, T10, the source's round trip: with the reference peripheral at the engine's width and no failed call,
`WR_DTR v; LOAD_CNTR; RD_CNTR`, presented one after the other and run step by step, ends with
`Ok(zext_32(v[8*DW-1 : 0]))`. -/
def Obligations.WriteLoadReadRoundTrip : Prop :=
  ∀ (s : State) (v : Word) (rest : List HostInput) (oks : List Byte) (more : List Reply),
    s.seq = .idle → s.world = .reference → s.csLine = .high → s.dw.toNat = s.dev.width →
    s.inbox = encode (.wrDtr v) :: encode .loadCntr :: encode .rdCntr :: rest →
    s.replies = oks.map .ok ++ more → oks.length = 9 + 2 * s.dw.toNat →
    ∃ t, Core.run core 3 s = .next t ∧ t.seq = .idle ∧ t.inbox = rest ∧ t.dw = s.dw ∧
      t.result = some (.word (BitVec.ofNat 32 (v.toNat % 2 ^ (8 * s.dw.toNat))))
end

