-- ==== Sys2Proof/Laws/Device.lean ====
section
/-!
SUPPORT. What the reference peripheral does with each byte (20_memory R72 to R76), by the row of its command.
-/

namespace Sys2Proof.Machine

/-- The peripheral's own width is legal, whatever its Mode Register 1 holds (20_memory R71). -/
theorem Device.width_bounds (d : Device) : 1 ≤ d.width ∧ d.width ≤ 4 := by
  have : (d.mdr1 &&& 3#8).toNat ≤ 3 := by simp; exact Nat.and_le_right
  simp only [Device.width]; omega

@[simp] theorem Device.width_frame (d : Device) (f : DeviceFrame) :
    ({ d with frame := f } : Device).width = d.width := rfl

@[simp] theorem Device.width_dtr (d : Device) (x : Word) (f : DeviceFrame) :
    ({ d with dtr := x, frame := f } : Device).width = d.width := rfl

@[simp] theorem Device.select_high (d : Device) : d.select .high = { d with frame := .command } := rfl

/-- The command byte of a clear. -/
theorem Device.exchange_clear {d : Device} {tx : Byte} {row : OpRow} (hf : d.frame = .command)
    (hr : rowOf tx = some row) (ha : row.action = .clear) (k : Nat) (rx : Byte) :
    d.exchange k tx rx = (rx, { d.clear row.reg with frame := .payload tx 0 }) := by
  simp [Device.exchange, hf, Device.command, hr, ha]

/-- The command byte of a load. -/
theorem Device.exchange_load {d : Device} {tx : Byte} {row : OpRow} (hf : d.frame = .command)
    (hr : rowOf tx = some row) (ha : row.action = .load) (k : Nat) (rx : Byte) :
    d.exchange k tx rx = (rx, { d.load row.reg with frame := .payload tx 0 }) := by
  simp [Device.exchange, hf, Device.command, hr, ha]

/-- The command byte of a read or a write changes no register. -/
theorem Device.exchange_open {d : Device} {tx : Byte} {row : OpRow} (hf : d.frame = .command)
    (hr : rowOf tx = some row) (ha : row.action = .read ∨ row.action = .write) (k : Nat) (rx : Byte) :
    d.exchange k tx rx = (rx, { d with frame := .payload tx 0 }) := by
  rcases ha with ha | ha <;> simp [Device.exchange, hf, Device.command, hr, ha]

/-- A payload byte of a read: the register's byte comes back and no register changes. -/
theorem Device.exchange_read {d : Device} {cmd : Byte} {i : Nat} {row : OpRow}
    (hf : d.frame = .payload cmd i) (hr : rowOf cmd = some row) (ha : row.action = .read)
    (k : Nat) (tx rx : Byte) :
    d.exchange k tx rx = (d.readByte row.reg i rx, { d with frame := .payload cmd (i + 1) }) := by
  simp [Device.exchange, hf, hr, ha]

/-- A payload byte of a write. -/
theorem Device.exchange_write {d : Device} {cmd : Byte} {i : Nat} {row : OpRow}
    (hf : d.frame = .payload cmd i) (hr : rowOf cmd = some row) (ha : row.action = .write)
    (k : Nat) (tx rx : Byte) :
    d.exchange k tx rx = (rx, { d.writeByte k row.reg i tx with frame := .payload cmd (i + 1) }) := by
  simp [Device.exchange, hf, hr, ha]

/-- A lost frame stays lost whatever byte comes. -/
theorem Device.exchange_lost {d : Device} (hf : d.frame = .lost) (k : Nat) (tx rx : Byte) :
    (d.exchange k tx rx).2.frame = .lost := by
  simp [Device.exchange, hf, Device.loseTrack]

/-- The end of a frame that is no `WR_DTR` frame cut short. -/
theorem Device.deselect_payload {d : Device} {cmd : Byte} {i : Nat} (hf : d.frame = .payload cmd i)
    (h : formatOf cmd = .writeWord → d.width ≤ i) (k : Nat) :
    d.deselect k = { d with frame := .closed } := by
  have : ¬ (formatOf cmd = .writeWord ∧ i < d.width) := by
    intro ⟨hc, hi⟩; have := h hc; omega
  simp only [Device.deselect, hf, if_neg this]

end Sys2Proof.Machine
end

