-- ==== Sys2Proof/Laws/Operands.lean ====
section
/-!
SUPPORT. The operand functions bit by bit (20_memory R57, R75; 30_encoding R87, R91), and the payload of each
frame format.
-/

namespace Sys2Proof.Machine

theorem txByte_getLsbD (v : Word) (w i j : Nat) :
    (txByte v w i).getLsbD j = (decide (j < 8) && v.getLsbD (8 * (w - 1 - i) + j)) := by
  simp [txByte]

theorem accStep_getLsbD (acc : Word) (rx : Byte) (j : Nat) (hj : j < 32) :
    (accStep acc rx).getLsbD j = if j < 8 then rx.getLsbD j else acc.getLsbD (j - 8) := by
  simp only [accStep, BitVec.getLsbD_or, BitVec.getLsbD_shiftLeft, BitVec.getLsbD_setWidth, hj,
    decide_true, Bool.true_and]
  by_cases h : j < 8
  · simp [h]
  · rw [BitVec.getLsbD_of_ge rx _ (by omega)]; simp [h]

/-- The mask of one byte, bit by bit. -/
theorem byteMask_getLsbD (n : Nat) : (0xFF#32).getLsbD n = decide (n < 8) := by
  by_cases hn : n < 32
  · have : ∀ n : Fin 32, (0xFF#32).getLsbD n = decide (n.val < 8) := by decide
    exact this ⟨n, hn⟩
  · rw [BitVec.getLsbD_of_ge _ _ (by omega)]; simp; omega

/-- The byte put replaces its eight bits and no other. -/
theorem putByte_getLsbD (v : Word) (w i : Nat) (b : Byte) (j : Nat) (hj : j < 32) :
    (putByte v w i b).getLsbD j =
      if 8 * (w - 1 - i) ≤ j ∧ j < 8 * (w - 1 - i) + 8 then b.getLsbD (j - 8 * (w - 1 - i))
      else v.getLsbD j := by
  simp only [putByte, BitVec.getLsbD_or, BitVec.getLsbD_and, BitVec.getLsbD_not,
    BitVec.getLsbD_shiftLeft, byteMask_getLsbD, BitVec.getLsbD_setWidth, hj, decide_true, Bool.true_and]
  by_cases h1 : j < 8 * (w - 1 - i)
  · rw [if_neg (by omega)]; simp [h1]
  · by_cases h2 : j - 8 * (w - 1 - i) < 8
    · rw [if_pos (by omega)]; simp [h1, h2]; intro; omega
    · rw [if_neg (by omega), BitVec.getLsbD_of_ge b _ (by omega)]
      simp [h1, h2]

@[simp] theorem assemble_nil : assemble [] = 0 := rfl

@[simp] theorem assemble_concat (rs : List Byte) (r : Byte) :
    assemble (rs ++ [r]) = accStep (assemble rs) r := by simp [assemble]

/-- The operand a byte write latches is its byte, whatever stands in the ignored bits. -/
@[simp] theorem byteOperand_withByteOperand (wdata : Word) (value : Byte) :
    byteOperand (withByteOperand wdata value) = value := by
  ext i hi
  have : (0xFFFFFF00#32).getLsbD i = false := by interval_cases i <;> rfl
  simp [byteOperand, withByteOperand, this] at *

@[simp] theorem txByte_withByteOperand (wdata : Word) (value : Byte) :
    txByte (withByteOperand wdata value) 1 0 = value := by
  simpa [txByte, byteOperand] using byteOperand_withByteOperand wdata value

@[simp] theorem payloadBytes_length (f : Format) (dw : Width) (wdr : Word) :
    (payloadBytes f dw wdr).length = payloadLength f dw := by simp [payloadBytes]

/-- A read sends dummy bytes only (41_read R121). -/
theorem payloadBytes_of_isRead {f : Format} (hf : isRead f = true) (dw : Width) (wdr : Word) :
    payloadBytes f dw wdr = List.replicate (payloadLength f dw) Config.dummyByte := by
  rw [List.eq_replicate_iff]
  simp [payloadBytes, payloadByte, hf]

/-- No payload is longer than four bytes (20_memory R56). -/
theorem payloadLength_le_four {f : Format} {dw : Width}
    (h : readsWidth f = true → widthValid dw = true) : payloadLength f dw ≤ 4 := by
  cases f <;> simp [payloadLength]
  all_goals simp [readsWidth, widthValid] at h; omega

end Sys2Proof.Machine
end

