-- ==== Sys2Proof/Laws/State.lean ====
section
/-!
SUPPORT. What each named update of the state does to each field, once: no later proof unfolds an update.
-/

namespace Sys2Proof.Machine

@[simp] theorem State.advance_dw (s : State) : s.advance.dw = s.dw := rfl
@[simp] theorem State.advance_seq (s : State) : s.advance.seq = s.seq := rfl
@[simp] theorem State.advance_acc (s : State) : s.advance.acc = s.acc := rfl
@[simp] theorem State.advance_idx (s : State) : s.advance.idx = s.idx := rfl
@[simp] theorem State.advance_opr (s : State) : s.advance.opr = s.opr := rfl
@[simp] theorem State.advance_wdr (s : State) : s.advance.wdr = s.wdr := rfl
@[simp] theorem State.advance_err (s : State) : s.advance.err = s.err := rfl
@[simp] theorem State.advance_result (s : State) : s.advance.result = s.result := rfl
@[simp] theorem State.advance_lextOut (s : State) : s.advance.lextOut = s.lextOut := rfl
@[simp] theorem State.advance_inbox (s : State) : s.advance.inbox = s.inbox := rfl
@[simp] theorem State.advance_wdata (s : State) : s.advance.wdata = s.wdata := rfl
@[simp] theorem State.advance_csLine (s : State) : s.advance.csLine = s.csLine := rfl
@[simp] theorem State.advance_world (s : State) : s.advance.world = s.world := rfl
@[simp] theorem State.advance_dev (s : State) : s.advance.dev = s.dev := rfl
@[simp] theorem State.advance_replies (s : State) : s.advance.replies = s.replies := rfl
@[simp] theorem State.advance_draws (s : State) : s.advance.draws = s.draws + Config.drawStride := rfl
@[simp] theorem State.advance_trace (s : State) : s.advance.trace = s.trace := rfl

@[simp] theorem State.emit_dw (e : Event) (s : State) : (s.emit e).dw = s.dw := rfl
@[simp] theorem State.emit_seq (e : Event) (s : State) : (s.emit e).seq = s.seq := rfl
@[simp] theorem State.emit_acc (e : Event) (s : State) : (s.emit e).acc = s.acc := rfl
@[simp] theorem State.emit_idx (e : Event) (s : State) : (s.emit e).idx = s.idx := rfl
@[simp] theorem State.emit_opr (e : Event) (s : State) : (s.emit e).opr = s.opr := rfl
@[simp] theorem State.emit_wdr (e : Event) (s : State) : (s.emit e).wdr = s.wdr := rfl
@[simp] theorem State.emit_err (e : Event) (s : State) : (s.emit e).err = s.err := rfl
@[simp] theorem State.emit_result (e : Event) (s : State) : (s.emit e).result = s.result := rfl
@[simp] theorem State.emit_lextOut (e : Event) (s : State) : (s.emit e).lextOut = s.lextOut := rfl
@[simp] theorem State.emit_inbox (e : Event) (s : State) : (s.emit e).inbox = s.inbox := rfl
@[simp] theorem State.emit_wdata (e : Event) (s : State) : (s.emit e).wdata = s.wdata := rfl
@[simp] theorem State.emit_csLine (e : Event) (s : State) : (s.emit e).csLine = s.csLine := rfl
@[simp] theorem State.emit_world (e : Event) (s : State) : (s.emit e).world = s.world := rfl
@[simp] theorem State.emit_dev (e : Event) (s : State) : (s.emit e).dev = s.dev := rfl
@[simp] theorem State.emit_replies (e : Event) (s : State) : (s.emit e).replies = s.replies := rfl
@[simp] theorem State.emit_draws (e : Event) (s : State) : (s.emit e).draws = s.draws := rfl
@[simp] theorem State.emit_trace (e : Event) (s : State) : (s.emit e).trace = s.trace ++ [e] := rfl

@[simp] theorem State.deliver_dw (r : Result) (s : State) : (s.deliver r).dw = s.dw := rfl
@[simp] theorem State.deliver_seq (r : Result) (s : State) : (s.deliver r).seq = s.seq := rfl
@[simp] theorem State.deliver_acc (r : Result) (s : State) : (s.deliver r).acc = s.acc := rfl
@[simp] theorem State.deliver_idx (r : Result) (s : State) : (s.deliver r).idx = s.idx := rfl
@[simp] theorem State.deliver_opr (r : Result) (s : State) : (s.deliver r).opr = s.opr := rfl
@[simp] theorem State.deliver_wdr (r : Result) (s : State) : (s.deliver r).wdr = s.wdr := rfl
@[simp] theorem State.deliver_err (r : Result) (s : State) : (s.deliver r).err = s.err := rfl
@[simp] theorem State.deliver_result (r : Result) (s : State) : (s.deliver r).result = some r := rfl
@[simp] theorem State.deliver_lextOut (r : Result) (s : State) : (s.deliver r).lextOut = s.lextOut := rfl
@[simp] theorem State.deliver_inbox (r : Result) (s : State) : (s.deliver r).inbox = s.inbox := rfl
@[simp] theorem State.deliver_wdata (r : Result) (s : State) : (s.deliver r).wdata = s.wdata := rfl
@[simp] theorem State.deliver_csLine (r : Result) (s : State) : (s.deliver r).csLine = s.csLine := rfl
@[simp] theorem State.deliver_world (r : Result) (s : State) : (s.deliver r).world = s.world := rfl
@[simp] theorem State.deliver_dev (r : Result) (s : State) : (s.deliver r).dev = s.dev := rfl
@[simp] theorem State.deliver_replies (r : Result) (s : State) : (s.deliver r).replies = s.replies := rfl
@[simp] theorem State.deliver_draws (r : Result) (s : State) : (s.deliver r).draws = s.draws := rfl
@[simp] theorem State.deliver_trace (r : Result) (s : State) : (s.deliver r).trace = s.trace := rfl

@[simp] theorem State.answer_dw (r : Result) (s : State) : (s.answer r).dw = s.dw := rfl
@[simp] theorem State.answer_seq (r : Result) (s : State) : (s.answer r).seq = s.seq := rfl
@[simp] theorem State.answer_acc (r : Result) (s : State) : (s.answer r).acc = s.acc := rfl
@[simp] theorem State.answer_idx (r : Result) (s : State) : (s.answer r).idx = s.idx := rfl
@[simp] theorem State.answer_opr (r : Result) (s : State) : (s.answer r).opr = s.opr := rfl
@[simp] theorem State.answer_wdr (r : Result) (s : State) : (s.answer r).wdr = s.wdr := rfl
@[simp] theorem State.answer_err (r : Result) (s : State) : (s.answer r).err = s.err := rfl
@[simp] theorem State.answer_result (r : Result) (s : State) : (s.answer r).result = some r := rfl
@[simp] theorem State.answer_lextOut (r : Result) (s : State) : (s.answer r).lextOut = s.lextOut := rfl
@[simp] theorem State.answer_inbox (r : Result) (s : State) : (s.answer r).inbox = s.inbox := rfl
@[simp] theorem State.answer_wdata (r : Result) (s : State) : (s.answer r).wdata = s.wdata := rfl
@[simp] theorem State.answer_csLine (r : Result) (s : State) : (s.answer r).csLine = s.csLine := rfl
@[simp] theorem State.answer_world (r : Result) (s : State) : (s.answer r).world = s.world := rfl
@[simp] theorem State.answer_dev (r : Result) (s : State) : (s.answer r).dev = s.dev := rfl
@[simp] theorem State.answer_replies (r : Result) (s : State) : (s.answer r).replies = s.replies := rfl
@[simp] theorem State.answer_draws (r : Result) (s : State) : (s.answer r).draws = s.draws + Config.drawStride := rfl
@[simp] theorem State.answer_trace (r : Result) (s : State) : (s.answer r).trace = s.trace := rfl

@[simp] theorem State.refuse_dw (s : State) : s.refuse.dw = s.dw := rfl
@[simp] theorem State.refuse_seq (s : State) : s.refuse.seq = s.seq := rfl
@[simp] theorem State.refuse_acc (s : State) : s.refuse.acc = s.acc := rfl
@[simp] theorem State.refuse_idx (s : State) : s.refuse.idx = s.idx := rfl
@[simp] theorem State.refuse_opr (s : State) : s.refuse.opr = s.opr := rfl
@[simp] theorem State.refuse_wdr (s : State) : s.refuse.wdr = s.wdr := rfl
@[simp] theorem State.refuse_err (s : State) : s.refuse.err = s.err := rfl
@[simp] theorem State.refuse_result (s : State) : s.refuse.result = some (.err .illegalOp) := rfl
@[simp] theorem State.refuse_lextOut (s : State) : s.refuse.lextOut = s.lextOut := rfl
@[simp] theorem State.refuse_inbox (s : State) : s.refuse.inbox = s.inbox := rfl
@[simp] theorem State.refuse_wdata (s : State) : s.refuse.wdata = s.wdata := rfl
@[simp] theorem State.refuse_csLine (s : State) : s.refuse.csLine = s.csLine := rfl
@[simp] theorem State.refuse_world (s : State) : s.refuse.world = s.world := rfl
@[simp] theorem State.refuse_dev (s : State) : s.refuse.dev = s.dev := rfl
@[simp] theorem State.refuse_replies (s : State) : s.refuse.replies = s.replies := rfl
@[simp] theorem State.refuse_draws (s : State) : s.refuse.draws = s.draws + Config.drawStride := rfl
@[simp] theorem State.refuse_trace (s : State) : s.refuse.trace = s.trace := rfl

@[simp] theorem State.forget_dw (s : State) : s.forget.dw = s.dw := rfl
@[simp] theorem State.forget_seq (s : State) : s.forget.seq = s.seq := rfl
@[simp] theorem State.forget_acc (s : State) : s.forget.acc = Config.freeBits 32 s.draws := rfl
@[simp] theorem State.forget_idx (s : State) : s.forget.idx = Config.freeBits 2 s.draws := rfl
@[simp] theorem State.forget_opr (s : State) : s.forget.opr = Config.freeBits 8 s.draws := rfl
@[simp] theorem State.forget_wdr (s : State) : s.forget.wdr = Config.freeBits 32 (s.draws + 1) := rfl
@[simp] theorem State.forget_err (s : State) : s.forget.err = Config.freeFailure s.draws := rfl
@[simp] theorem State.forget_result (s : State) : s.forget.result = s.result := rfl
@[simp] theorem State.forget_lextOut (s : State) : s.forget.lextOut = s.lextOut := rfl
@[simp] theorem State.forget_inbox (s : State) : s.forget.inbox = s.inbox := rfl
@[simp] theorem State.forget_wdata (s : State) : s.forget.wdata = s.wdata := rfl
@[simp] theorem State.forget_csLine (s : State) : s.forget.csLine = s.csLine := rfl
@[simp] theorem State.forget_world (s : State) : s.forget.world = s.world := rfl
@[simp] theorem State.forget_dev (s : State) : s.forget.dev = s.dev := rfl
@[simp] theorem State.forget_replies (s : State) : s.forget.replies = s.replies := rfl
@[simp] theorem State.forget_draws (s : State) : s.forget.draws = s.draws + Config.drawStride := rfl
@[simp] theorem State.forget_trace (s : State) : s.forget.trace = s.trace := rfl

@[simp] theorem State.finish_dw (r : Result) (s : State) : (s.finish r).dw = s.dw := rfl
@[simp] theorem State.finish_seq (r : Result) (s : State) : (s.finish r).seq = .idle := rfl
@[simp] theorem State.finish_acc (r : Result) (s : State) : (s.finish r).acc = Config.freeBits 32 s.draws := rfl
@[simp] theorem State.finish_idx (r : Result) (s : State) : (s.finish r).idx = Config.freeBits 2 s.draws := rfl
@[simp] theorem State.finish_opr (r : Result) (s : State) : (s.finish r).opr = Config.freeBits 8 s.draws := rfl
@[simp] theorem State.finish_wdr (r : Result) (s : State) : (s.finish r).wdr = Config.freeBits 32 (s.draws + 1) := rfl
@[simp] theorem State.finish_err (r : Result) (s : State) : (s.finish r).err = Config.freeFailure s.draws := rfl
@[simp] theorem State.finish_result (r : Result) (s : State) : (s.finish r).result = some r := rfl
@[simp] theorem State.finish_lextOut (r : Result) (s : State) : (s.finish r).lextOut = s.lextOut := rfl
@[simp] theorem State.finish_inbox (r : Result) (s : State) : (s.finish r).inbox = s.inbox := rfl
@[simp] theorem State.finish_wdata (r : Result) (s : State) : (s.finish r).wdata = s.wdata := rfl
@[simp] theorem State.finish_csLine (r : Result) (s : State) : (s.finish r).csLine = s.csLine := rfl
@[simp] theorem State.finish_world (r : Result) (s : State) : (s.finish r).world = s.world := rfl
@[simp] theorem State.finish_dev (r : Result) (s : State) : (s.finish r).dev = s.dev := rfl
@[simp] theorem State.finish_replies (r : Result) (s : State) : (s.finish r).replies = s.replies := rfl
@[simp] theorem State.finish_draws (r : Result) (s : State) : (s.finish r).draws = s.draws + Config.drawStride := rfl
@[simp] theorem State.finish_trace (r : Result) (s : State) : (s.finish r).trace = s.trace := rfl

@[simp] theorem State.abort_dw (f : Failure) (s : State) : (s.abort f).dw = s.dw := rfl
@[simp] theorem State.abort_seq (f : Failure) (s : State) : (s.abort f).seq = .abort := rfl
@[simp] theorem State.abort_acc (f : Failure) (s : State) : (s.abort f).acc = s.acc := rfl
@[simp] theorem State.abort_idx (f : Failure) (s : State) : (s.abort f).idx = s.idx := rfl
@[simp] theorem State.abort_opr (f : Failure) (s : State) : (s.abort f).opr = s.opr := rfl
@[simp] theorem State.abort_wdr (f : Failure) (s : State) : (s.abort f).wdr = s.wdr := rfl
@[simp] theorem State.abort_err (f : Failure) (s : State) : (s.abort f).err = f := rfl
@[simp] theorem State.abort_result (f : Failure) (s : State) : (s.abort f).result = s.result := rfl
@[simp] theorem State.abort_lextOut (f : Failure) (s : State) : (s.abort f).lextOut = s.lextOut := rfl
@[simp] theorem State.abort_inbox (f : Failure) (s : State) : (s.abort f).inbox = s.inbox := rfl
@[simp] theorem State.abort_wdata (f : Failure) (s : State) : (s.abort f).wdata = s.wdata := rfl
@[simp] theorem State.abort_csLine (f : Failure) (s : State) : (s.abort f).csLine = s.csLine := rfl
@[simp] theorem State.abort_world (f : Failure) (s : State) : (s.abort f).world = s.world := rfl
@[simp] theorem State.abort_dev (f : Failure) (s : State) : (s.abort f).dev = s.dev := rfl
@[simp] theorem State.abort_replies (f : Failure) (s : State) : (s.abort f).replies = s.replies := rfl
@[simp] theorem State.abort_draws (f : Failure) (s : State) : (s.abort f).draws = s.draws := rfl
@[simp] theorem State.abort_trace (f : Failure) (s : State) : (s.abort f).trace = s.trace := rfl

@[simp] theorem State.accept_dw (code : Byte) (w : Word) (s : State) : (s.accept code w).dw = s.dw := rfl
@[simp] theorem State.accept_seq (code : Byte) (w : Word) (s : State) : (s.accept code w).seq = .sel := rfl
@[simp] theorem State.accept_acc (code : Byte) (w : Word) (s : State) : (s.accept code w).acc = s.acc := rfl
@[simp] theorem State.accept_idx (code : Byte) (w : Word) (s : State) : (s.accept code w).idx = s.idx := rfl
@[simp] theorem State.accept_opr (code : Byte) (w : Word) (s : State) : (s.accept code w).opr = code := rfl
@[simp] theorem State.accept_wdr (code : Byte) (w : Word) (s : State) : (s.accept code w).wdr = w := rfl
@[simp] theorem State.accept_err (code : Byte) (w : Word) (s : State) : (s.accept code w).err = s.err := rfl
@[simp] theorem State.accept_result (code : Byte) (w : Word) (s : State) : (s.accept code w).result = none := rfl
@[simp] theorem State.accept_lextOut (code : Byte) (w : Word) (s : State) : (s.accept code w).lextOut = s.lextOut := rfl
@[simp] theorem State.accept_inbox (code : Byte) (w : Word) (s : State) : (s.accept code w).inbox = s.inbox := rfl
@[simp] theorem State.accept_wdata (code : Byte) (w : Word) (s : State) : (s.accept code w).wdata = s.wdata := rfl
@[simp] theorem State.accept_csLine (code : Byte) (w : Word) (s : State) : (s.accept code w).csLine = s.csLine := rfl
@[simp] theorem State.accept_world (code : Byte) (w : Word) (s : State) : (s.accept code w).world = s.world := rfl
@[simp] theorem State.accept_dev (code : Byte) (w : Word) (s : State) : (s.accept code w).dev = s.dev := rfl
@[simp] theorem State.accept_replies (code : Byte) (w : Word) (s : State) : (s.accept code w).replies = s.replies := rfl
@[simp] theorem State.accept_draws (code : Byte) (w : Word) (s : State) : (s.accept code w).draws = s.draws := rfl
@[simp] theorem State.accept_trace (code : Byte) (w : Word) (s : State) : (s.accept code w).trace = s.trace := rfl

@[simp] theorem State.construct_dw (s : State) : s.construct.dw = Config.resetWidth := rfl
@[simp] theorem State.construct_seq (s : State) : s.construct.seq = .idle := rfl
@[simp] theorem State.construct_acc (s : State) : s.construct.acc = Config.freeBits 32 s.draws := rfl
@[simp] theorem State.construct_idx (s : State) : s.construct.idx = Config.freeBits 2 s.draws := rfl
@[simp] theorem State.construct_opr (s : State) : s.construct.opr = Config.freeBits 8 s.draws := rfl
@[simp] theorem State.construct_wdr (s : State) : s.construct.wdr = Config.freeBits 32 (s.draws + 1) := rfl
@[simp] theorem State.construct_err (s : State) : s.construct.err = Config.freeFailure s.draws := rfl
@[simp] theorem State.construct_result (s : State) : s.construct.result = none := rfl
@[simp] theorem State.construct_lextOut (s : State) : s.construct.lextOut = none := rfl
@[simp] theorem State.construct_inbox (s : State) : s.construct.inbox = s.inbox := rfl
@[simp] theorem State.construct_wdata (s : State) : s.construct.wdata = s.wdata := rfl
@[simp] theorem State.construct_csLine (s : State) : s.construct.csLine = s.csLine := rfl
@[simp] theorem State.construct_world (s : State) : s.construct.world = s.world := rfl
@[simp] theorem State.construct_dev (s : State) : s.construct.dev = s.dev := rfl
@[simp] theorem State.construct_replies (s : State) : s.construct.replies = s.replies := rfl
@[simp] theorem State.construct_draws (s : State) : s.construct.draws = s.draws + Config.drawStride := rfl
@[simp] theorem State.construct_trace (s : State) : s.construct.trace = s.trace := rfl

@[simp] theorem State.onDevice_dw (g : Device → Device) (s : State) : (s.onDevice g).dw = s.dw := by
  unfold State.onDevice; split <;> rfl
@[simp] theorem State.onDevice_seq (g : Device → Device) (s : State) : (s.onDevice g).seq = s.seq := by
  unfold State.onDevice; split <;> rfl
@[simp] theorem State.onDevice_acc (g : Device → Device) (s : State) : (s.onDevice g).acc = s.acc := by
  unfold State.onDevice; split <;> rfl
@[simp] theorem State.onDevice_idx (g : Device → Device) (s : State) : (s.onDevice g).idx = s.idx := by
  unfold State.onDevice; split <;> rfl
@[simp] theorem State.onDevice_opr (g : Device → Device) (s : State) : (s.onDevice g).opr = s.opr := by
  unfold State.onDevice; split <;> rfl
@[simp] theorem State.onDevice_wdr (g : Device → Device) (s : State) : (s.onDevice g).wdr = s.wdr := by
  unfold State.onDevice; split <;> rfl
@[simp] theorem State.onDevice_err (g : Device → Device) (s : State) : (s.onDevice g).err = s.err := by
  unfold State.onDevice; split <;> rfl
@[simp] theorem State.onDevice_result (g : Device → Device) (s : State) : (s.onDevice g).result = s.result := by
  unfold State.onDevice; split <;> rfl
@[simp] theorem State.onDevice_lextOut (g : Device → Device) (s : State) : (s.onDevice g).lextOut = s.lextOut := by
  unfold State.onDevice; split <;> rfl
@[simp] theorem State.onDevice_inbox (g : Device → Device) (s : State) : (s.onDevice g).inbox = s.inbox := by
  unfold State.onDevice; split <;> rfl
@[simp] theorem State.onDevice_wdata (g : Device → Device) (s : State) : (s.onDevice g).wdata = s.wdata := by
  unfold State.onDevice; split <;> rfl
@[simp] theorem State.onDevice_csLine (g : Device → Device) (s : State) : (s.onDevice g).csLine = s.csLine := by
  unfold State.onDevice; split <;> rfl
@[simp] theorem State.onDevice_world (g : Device → Device) (s : State) : (s.onDevice g).world = s.world := by
  unfold State.onDevice; split <;> rfl
@[simp] theorem State.onDevice_replies (g : Device → Device) (s : State) : (s.onDevice g).replies = s.replies := by
  unfold State.onDevice; split <;> rfl
@[simp] theorem State.onDevice_draws (g : Device → Device) (s : State) : (s.onDevice g).draws = s.draws := by
  unfold State.onDevice; split <;> rfl
@[simp] theorem State.onDevice_trace (g : Device → Device) (s : State) : (s.onDevice g).trace = s.trace := by
  unfold State.onDevice; split <;> rfl

theorem State.onDevice_dev_arbitrary {g : Device → Device} {s : State} (h : s.world = .arbitrary) :
    (s.onDevice g).dev = s.dev := by simp [State.onDevice, h]

theorem State.onDevice_dev_reference {g : Device → Device} {s : State} (h : s.world = .reference) :
    (s.onDevice g).dev = g s.dev := by simp [State.onDevice, h]

@[simp] theorem State.commit_seq (s : State) : s.commit.seq = s.seq := by
  unfold State.commit; split <;> rfl
@[simp] theorem State.commit_acc (s : State) : s.commit.acc = s.acc := by
  unfold State.commit; split <;> rfl
@[simp] theorem State.commit_idx (s : State) : s.commit.idx = s.idx := by
  unfold State.commit; split <;> rfl
@[simp] theorem State.commit_opr (s : State) : s.commit.opr = s.opr := by
  unfold State.commit; split <;> rfl
@[simp] theorem State.commit_wdr (s : State) : s.commit.wdr = s.wdr := by
  unfold State.commit; split <;> rfl
@[simp] theorem State.commit_err (s : State) : s.commit.err = s.err := by
  unfold State.commit; split <;> rfl
@[simp] theorem State.commit_result (s : State) : s.commit.result = s.result := by
  unfold State.commit; split <;> rfl
@[simp] theorem State.commit_lextOut (s : State) : s.commit.lextOut = s.lextOut := by
  unfold State.commit; split <;> rfl
@[simp] theorem State.commit_inbox (s : State) : s.commit.inbox = s.inbox := by
  unfold State.commit; split <;> rfl
@[simp] theorem State.commit_wdata (s : State) : s.commit.wdata = s.wdata := by
  unfold State.commit; split <;> rfl
@[simp] theorem State.commit_csLine (s : State) : s.commit.csLine = s.csLine := by
  unfold State.commit; split <;> rfl
@[simp] theorem State.commit_world (s : State) : s.commit.world = s.world := by
  unfold State.commit; split <;> rfl
@[simp] theorem State.commit_dev (s : State) : s.commit.dev = s.dev := by
  unfold State.commit; split <;> rfl
@[simp] theorem State.commit_replies (s : State) : s.commit.replies = s.replies := by
  unfold State.commit; split <;> rfl
@[simp] theorem State.commit_draws (s : State) : s.commit.draws = s.draws := by
  unfold State.commit; split <;> rfl
@[simp] theorem State.commit_trace (s : State) : s.commit.trace = s.trace := by
  unfold State.commit; split <;> rfl

@[simp] theorem State.present_dw (i : HostInput) (rest : List HostInput) (s : State) :
    (s.present i rest).dw = s.dw := by cases i <;> rfl
@[simp] theorem State.present_seq (i : HostInput) (rest : List HostInput) (s : State) :
    (s.present i rest).seq = s.seq := by cases i <;> rfl
@[simp] theorem State.present_acc (i : HostInput) (rest : List HostInput) (s : State) :
    (s.present i rest).acc = s.acc := by cases i <;> rfl
@[simp] theorem State.present_idx (i : HostInput) (rest : List HostInput) (s : State) :
    (s.present i rest).idx = s.idx := by cases i <;> rfl
@[simp] theorem State.present_opr (i : HostInput) (rest : List HostInput) (s : State) :
    (s.present i rest).opr = s.opr := by cases i <;> rfl
@[simp] theorem State.present_wdr (i : HostInput) (rest : List HostInput) (s : State) :
    (s.present i rest).wdr = s.wdr := by cases i <;> rfl
@[simp] theorem State.present_err (i : HostInput) (rest : List HostInput) (s : State) :
    (s.present i rest).err = s.err := by cases i <;> rfl
@[simp] theorem State.present_result (i : HostInput) (rest : List HostInput) (s : State) :
    (s.present i rest).result = s.result := by cases i <;> rfl
@[simp] theorem State.present_lextOut (i : HostInput) (rest : List HostInput) (s : State) :
    (s.present i rest).lextOut = s.lextOut := by cases i <;> rfl
@[simp] theorem State.present_csLine (i : HostInput) (rest : List HostInput) (s : State) :
    (s.present i rest).csLine = s.csLine := by cases i <;> rfl
@[simp] theorem State.present_world (i : HostInput) (rest : List HostInput) (s : State) :
    (s.present i rest).world = s.world := by cases i <;> rfl
@[simp] theorem State.present_dev (i : HostInput) (rest : List HostInput) (s : State) :
    (s.present i rest).dev = s.dev := by cases i <;> rfl
@[simp] theorem State.present_replies (i : HostInput) (rest : List HostInput) (s : State) :
    (s.present i rest).replies = s.replies := by cases i <;> rfl
@[simp] theorem State.present_draws (i : HostInput) (rest : List HostInput) (s : State) :
    (s.present i rest).draws = s.draws := by cases i <;> rfl
@[simp] theorem State.present_trace (i : HostInput) (rest : List HostInput) (s : State) :
    (s.present i rest).trace = s.trace := by cases i <;> rfl
@[simp] theorem State.present_inbox (i : HostInput) (rest : List HostInput) (s : State) :
    (s.present i rest).inbox = rest := by cases i <;> rfl

@[simp] theorem State.present_wdata_request (op : Byte) (w : Word) (rest : List HostInput) (s : State) :
    (s.present (.request op w) rest).wdata = w := rfl

end Sys2Proof.Machine
end

