-- ==== Sys2Proof/Laws/Ops.lean ====
section
/-!
SUPPORT. For each shared operation, once, what it can do: the environment's calls, a row of the
sequencer's table, a run of the sequencer, a request.
-/

namespace Sys2Proof.Machine

/-- What no call to the environment changes: the engine's registers and outputs, and the host's side. -/
structure SameEngine (s t : State) : Prop where
  dw : t.dw = s.dw
  seq : t.seq = s.seq
  acc : t.acc = s.acc
  idx : t.idx = s.idx
  opr : t.opr = s.opr
  wdr : t.wdr = s.wdr
  err : t.err = s.err
  result : t.result = s.result
  lextOut : t.lextOut = s.lextOut
  inbox : t.inbox = s.inbox
  wdata : t.wdata = s.wdata
  world : t.world = s.world

/-! ### The next reply -/

theorem State.nextReply_scripted {s : State} {r : Reply} {rest : List Reply} (h : s.replies = r :: rest) :
    s.nextReply = (r, { s with replies := rest }) := by simp [State.nextReply, h]

theorem State.nextReply_drawn {s : State} (h : s.replies = []) :
    s.nextReply = (Config.freeReply s.draws, s.advance) := by simp [State.nextReply, h]

/-- Taking a reply changes nothing but the script and the free-value counter. -/
theorem State.nextReply_spec (s : State) :
    SameEngine s s.nextReply.2 ∧ s.nextReply.2.csLine = s.csLine ∧ s.nextReply.2.dev = s.dev ∧
      s.nextReply.2.trace = s.trace := by
  unfold State.nextReply
  split <;> exact ⟨⟨rfl, rfl, rfl, rfl, rfl, rfl, rfl, rfl, rfl, rfl, rfl, rfl⟩, rfl, rfl, rfl⟩

/-! ### The calls, with the reply known -/

theorem State.csLowCall_ok {s : State} {rx : Byte} {rest : List Reply} (h : s.replies = .ok rx :: rest) :
    s.csLowCall = .ok rx
      (({ State.onDevice (Device.select s.csLine) { s with replies := rest } with
        csLine := .low }).emit .csLow).advance := by
  simp [State.csLowCall, State.nextReply_scripted h]

theorem State.csLowCall_fail {s : State} {rest : List Reply} (h : s.replies = .fail :: rest) :
    s.csLowCall = .fail
      (({ State.onDevice (Device.selectFailed s.draws) { s with replies := rest } with
        csLine := Config.freeLevel s.draws }).emit .csLowFail).advance := by
  simp [State.csLowCall, State.nextReply_scripted h]

theorem State.csLowCall_silent {s : State} {rest : List Reply} (h : s.replies = .silent :: rest) :
    s.csLowCall = .silent { s with replies := rest } := by
  simp [State.csLowCall, State.nextReply_scripted h]

theorem State.csHighCall_ok {s : State} {rx : Byte} {rest : List Reply} (h : s.replies = .ok rx :: rest) :
    s.csHighCall = .ok rx
      (({ State.onDevice (Device.deselect s.draws) { s with replies := rest } with
        csLine := .high }).emit .csHigh).advance := by
  simp [State.csHighCall, State.nextReply_scripted h]

theorem State.csHighCall_fail {s : State} {rest : List Reply} (h : s.replies = .fail :: rest) :
    s.csHighCall = .fail
      (({ State.onDevice (Device.deselectFailed s.draws) { s with replies := rest } with
        csLine := Config.freeLevel s.draws }).emit .csHighFail).advance := by
  simp [State.csHighCall, State.nextReply_scripted h]

theorem State.csHighCall_silent {s : State} {rest : List Reply} (h : s.replies = .silent :: rest) :
    s.csHighCall = .silent { s with replies := rest } := by
  simp [State.csHighCall, State.nextReply_scripted h]

/-- The byte received does not depend on the script that is left. -/
@[simp] theorem State.received_replies (s : State) (rest : List Reply) (tx rx : Byte) :
    ({ s with replies := rest } : State).received tx rx = s.received tx rx := rfl

theorem State.received_arbitrary {s : State} (h : s.world = .arbitrary) (tx rx : Byte) :
    s.received tx rx = rx := by simp [State.received, h]

theorem State.received_reference {s : State} (h : s.world = .reference) (tx rx : Byte) :
    s.received tx rx = (s.dev.exchange s.draws tx rx).1 := by simp [State.received, h]

theorem State.xferCall_ok {s : State} {tx rx : Byte} {rest : List Reply} (h : s.replies = .ok rx :: rest) :
    s.xferCall tx = .ok (s.received tx rx)
      ((State.onDevice (fun d => (d.exchange s.draws tx rx).2) { s with replies := rest }).emit
        (.xfer tx (s.received tx rx))).advance := by
  simp [State.xferCall, State.nextReply_scripted h]

theorem State.xferCall_fail {s : State} {tx : Byte} {rest : List Reply} (h : s.replies = .fail :: rest) :
    s.xferCall tx = .fail
      ((State.onDevice (Device.transferFailed s.draws) { s with replies := rest }).emit
        (.xferFail tx)).advance := by
  simp [State.xferCall, State.nextReply_scripted h]

theorem State.xferCall_silent {s : State} {tx : Byte} {rest : List Reply} (h : s.replies = .silent :: rest) :
    s.xferCall tx = .silent { s with replies := rest } := by
  simp [State.xferCall, State.nextReply_scripted h]

/-! ### The calls, whatever the environment does -/

/-- `CsLow()`, whatever is answered: the engine is as it was; an answer leaves one event, silence none. -/
theorem State.csLowCall_spec (s : State) :
    (∃ rx t, s.csLowCall = .ok rx t ∧ SameEngine s t ∧ t.trace = s.trace ++ [.csLow] ∧ t.csLine = .low ∧
        (s.world = .reference → t.dev = s.dev.select s.csLine)) ∨
    (∃ t, s.csLowCall = .fail t ∧ SameEngine s t ∧ t.trace = s.trace ++ [.csLowFail]) ∨
    (∃ t, s.csLowCall = .silent t ∧ SameEngine s t ∧ t.trace = s.trace ∧ t.csLine = s.csLine ∧
        t.dev = s.dev) := by
  obtain ⟨h, hl, hd, ht⟩ := s.nextReply_spec
  unfold State.csLowCall
  split
  next heq =>
    simp only [heq] at h hl hd ht
    exact .inl ⟨_, _, rfl, by constructor <;> simp [h.dw, h.seq, h.acc, h.idx, h.opr, h.wdr, h.err,
      h.result, h.lextOut, h.inbox, h.wdata, h.world], by simp [ht], rfl, fun hw => by
      simp [State.onDevice, h.world, hw, hl, hd]⟩
  next heq =>
    simp only [heq] at h hl hd ht
    exact .inr (.inl ⟨_, rfl, by constructor <;> simp [h.dw, h.seq, h.acc, h.idx, h.opr, h.wdr, h.err,
      h.result, h.lextOut, h.inbox, h.wdata, h.world], by simp [ht]⟩)
  next heq =>
    simp only [heq] at h hl hd ht
    exact .inr (.inr ⟨_, rfl, h, ht, hl, hd⟩)

/-- `CsHigh()`, whatever is answered. -/
theorem State.csHighCall_spec (s : State) :
    (∃ rx t, s.csHighCall = .ok rx t ∧ SameEngine s t ∧ t.trace = s.trace ++ [.csHigh] ∧
        t.csLine = .high) ∨
    (∃ t, s.csHighCall = .fail t ∧ SameEngine s t ∧ t.trace = s.trace ++ [.csHighFail]) ∨
    (∃ t, s.csHighCall = .silent t ∧ SameEngine s t ∧ t.trace = s.trace ∧ t.csLine = s.csLine ∧
        t.dev = s.dev) := by
  obtain ⟨h, hl, hd, ht⟩ := s.nextReply_spec
  unfold State.csHighCall
  split
  next heq =>
    simp only [heq] at h hl hd ht
    exact .inl ⟨_, _, rfl, by constructor <;> simp [h.dw, h.seq, h.acc, h.idx, h.opr, h.wdr, h.err,
      h.result, h.lextOut, h.inbox, h.wdata, h.world], by simp [ht], rfl⟩
  next heq =>
    simp only [heq] at h hl hd ht
    exact .inr (.inl ⟨_, rfl, by constructor <;> simp [h.dw, h.seq, h.acc, h.idx, h.opr, h.wdr, h.err,
      h.result, h.lextOut, h.inbox, h.wdata, h.world], by simp [ht]⟩)
  next heq =>
    simp only [heq] at h hl hd ht
    exact .inr (.inr ⟨_, rfl, h, ht, hl, hd⟩)

/-- `Xfer(tx)`, whatever is answered: success records the byte it returns. -/
theorem State.xferCall_spec (tx : Byte) (s : State) :
    (∃ rx t k r, s.xferCall tx = .ok rx t ∧ SameEngine s t ∧ t.trace = s.trace ++ [.xfer tx rx] ∧
        t.csLine = s.csLine ∧
        (s.world = .reference → t.dev = (s.dev.exchange k tx r).2 ∧ rx = (s.dev.exchange k tx r).1)) ∨
    (∃ t, s.xferCall tx = .fail t ∧ SameEngine s t ∧ t.trace = s.trace ++ [.xferFail tx]) ∨
    (∃ t, s.xferCall tx = .silent t ∧ SameEngine s t ∧ t.trace = s.trace ∧ t.csLine = s.csLine ∧
        t.dev = s.dev) := by
  obtain ⟨h, hl, hd, ht⟩ := s.nextReply_spec
  unfold State.xferCall
  split
  next r t heq =>
    simp only [heq] at h hl hd ht
    exact .inl ⟨_, _, t.draws, r, rfl, by constructor <;> simp [h.dw, h.seq, h.acc, h.idx, h.opr, h.wdr,
      h.err, h.result, h.lextOut, h.inbox, h.wdata, h.world], by simp [ht], by simp [hl], fun hw => by
      simp [State.onDevice, State.received, h.world, hw, hd]⟩
  next heq =>
    simp only [heq] at h hl hd ht
    exact .inr (.inl ⟨_, rfl, by constructor <;> simp [h.dw, h.seq, h.acc, h.idx, h.opr, h.wdr, h.err,
      h.result, h.lextOut, h.inbox, h.wdata, h.world], by simp [ht]⟩)
  next heq =>
    simp only [heq] at h hl hd ht
    exact .inr (.inr ⟨_, rfl, h, ht, hl, hd⟩)

/-! ### A run of the sequencer -/

@[simp] theorem runSequencer_idle (n : Nat) {s : State} (h : s.seq = .idle) : runSequencer n s = s := by
  cases n <;> simp [runSequencer, h]

theorem runSequencer_moved {n : Nat} {s t : State} (h : s.seq ≠ .idle) (ht : tick s = .moved t) :
    runSequencer (n + 1) s = runSequencer n t := by
  conv_lhs => unfold runSequencer
  split
  · contradiction
  · simp [ht]

theorem runSequencer_waiting {n : Nat} {s t : State} (h : s.seq ≠ .idle) (ht : tick s = .waiting t) :
    runSequencer (n + 1) s = t := by
  conv_lhs => unfold runSequencer
  split
  · contradiction
  · simp [ht]

/-- What every row of the table keeps, a run keeps. -/
theorem runSequencer_keeps {P : State → Prop}
    (hmove : ∀ s t, P s → s.seq ≠ .idle → tick s = .moved t → P t)
    (hwait : ∀ s t, P s → s.seq ≠ .idle → tick s = .waiting t → P t) :
    ∀ (n : Nat) (s : State), P s → P (runSequencer n s) := by
  intro n
  induction n with
  | zero => exact fun s hs => hs
  | succ n ih =>
    intro s hs
    by_cases hi : s.seq = .idle
    · simpa [hi] using hs
    · cases ht : tick s with
      | moved t => rw [runSequencer_moved hi ht]; exact ih t (hmove s t hs hi ht)
      | waiting t => rw [runSequencer_waiting hi ht]; exact hwait s t hs hi ht

/-! ### Requests -/

/-- Every bus operation is a request with its command byte and the operand it latches. -/
theorem exec_bus {i : Instr} {code : Byte} (h : commandByte i = some code) (s : State) :
    ∃ w, exec i s = .next (s.request code w) := by
  cases i <;> simp only [commandByte, encode, Option.some.injEq, reduceCtorEq] at h <;> subst h <;>
    exact ⟨_, rfl⟩

/-- A request does one of three things. -/
theorem State.request_cases (code : Byte) (w : Word) (s : State) :
    (s.seq ≠ .idle ∧ s.request code w = s) ∨
    (s.seq = .idle ∧ readsWidth (formatOf code) = true ∧ widthValid s.dw = false ∧
      s.request code w = s.answer (.err .invalidWidthState)) ∨
    (s.seq = .idle ∧ (readsWidth (formatOf code) = true → widthValid s.dw = true) ∧
      s.request code w = runSequencer Config.callLimit (s.accept code w)) := by
  by_cases hs : s.seq = .idle
  · by_cases hw : (readsWidth (formatOf code) && !widthValid s.dw) = true
    · refine .inr (.inl ⟨hs, ?_, ?_, ?_⟩)
      · simp_all
      · simp_all
      · simp [State.request, hs, hw]
    · refine .inr (.inr ⟨hs, ?_, ?_⟩)
      · intro hr; simp_all
      · simp [State.request, hs, hw]
  · exact .inl ⟨hs, by simp [State.request, hs]⟩

theorem State.request_accepted {code : Byte} {w : Word} {s : State} (hs : s.seq = .idle)
    (hw : readsWidth (formatOf code) = true → widthValid s.dw = true) :
    s.request code w = runSequencer Config.callLimit (s.accept code w) := by
  rcases s.request_cases code w with ⟨h, _⟩ | ⟨_, hr, hv, _⟩ | ⟨_, _, h⟩
  · exact absurd hs h
  · simp [hw hr] at hv
  · exact h

/-- Every command byte of the encoder is in the opcode table. -/
theorem commandByte_listed {i : Instr} {code : Byte} (h : commandByte i = some code) :
    (rowOf code).isSome = true := by
  cases i <;> simp only [commandByte, encode, Option.some.injEq, reduceCtorEq] at h <;> subst h <;> rfl

end Sys2Proof.Machine
end

