-- ==== Sys2Proof/Laws/PerInstr.lean ====
section
/-!
SUPPORT. Statements about every operation as syntax, one lemma per constructor of `Instr`.
-/

namespace Sys2Proof.Laws.WellEncoded

/-- The operation is well-formed, the host action that encodes it asks for an operation, and its command
byte, if it has one, is a row of the opcode table and one of the 14 select codes (30_encoding R80 to R82). -/
def Statement (i : Instr) : Prop :=
  i.wellFormed = true ∧ (encode i).wellFormed = true ∧
    ∀ code, commandByte i = some code → (rowOf code).map OpRow.code = some code ∧ code ∈ selectCodes

theorem of_listed {i : Instr} {code : Byte} (hw : i.wellFormed = true) (he : (encode i).wellFormed = true)
    (hc : commandByte i = some code) (hr : (rowOf code).map OpRow.code = some code) (hm : code ∈ selectCodes) :
    Statement i :=
  ⟨hw, he, fun c h => by rw [hc] at h; cases h; exact ⟨hr, hm⟩⟩

theorem clrMdr0 : Statement .clrMdr0 := of_listed rfl rfl rfl rfl (by decide)

theorem clrMdr1 : Statement .clrMdr1 := of_listed rfl rfl rfl rfl (by decide)

theorem clrCntr : Statement .clrCntr := of_listed rfl rfl rfl rfl (by decide)

theorem clrStr : Statement .clrStr := of_listed rfl rfl rfl rfl (by decide)

theorem rdMdr0 : Statement .rdMdr0 := of_listed rfl rfl rfl rfl (by decide)

theorem rdMdr1 : Statement .rdMdr1 := of_listed rfl rfl rfl rfl (by decide)

theorem rdCntr : Statement .rdCntr := of_listed rfl rfl rfl rfl (by decide)

theorem rdOtr : Statement .rdOtr := of_listed rfl rfl rfl rfl (by decide)

theorem rdStr : Statement .rdStr := of_listed rfl rfl rfl rfl (by decide)

theorem loadCntr : Statement .loadCntr := of_listed rfl rfl rfl rfl (by decide)

theorem loadOtr : Statement .loadOtr := of_listed rfl rfl rfl rfl (by decide)

theorem wrMdr0 (value : Byte) : Statement (.wrMdr0 value) := of_listed rfl rfl rfl rfl (by decide)

theorem wrMdr1 (value : Byte) : Statement (.wrMdr1 value) := of_listed rfl rfl rfl rfl (by decide)

theorem wrDtr (v : Word) : Statement (.wrDtr v) := of_listed rfl rfl rfl rfl (by decide)

theorem lext (v : Word) : Statement (.lext v) := ⟨rfl, rfl, fun c h => by cases h⟩

end Sys2Proof.Laws.WellEncoded
end

