-- ==== Sys2Proof/Laws/Sequencer.lean ====
section
/-!
SUPPORT. The rows of the sequencer's table (30_encoding R90), each with its answer known: where the engine
goes, what it recorded, and what it kept.
-/

namespace Sys2Proof.Machine

/-- What stays as it is from acceptance to the end of the operation. -/
structure SameOperation (s t : State) : Prop where
  dw : t.dw = s.dw
  opr : t.opr = s.opr
  wdr : t.wdr = s.wdr
  result : t.result = s.result
  lextOut : t.lextOut = s.lextOut
  inbox : t.inbox = s.inbox
  wdata : t.wdata = s.wdata
  world : t.world = s.world

theorem SameOperation.refl (s : State) : SameOperation s s :=
  ⟨rfl, rfl, rfl, rfl, rfl, rfl, rfl, rfl⟩

theorem SameOperation.trans {s t u : State} (h : SameOperation s t) (k : SameOperation t u) :
    SameOperation s u :=
  ⟨k.dw.trans h.dw, k.opr.trans h.opr, k.wdr.trans h.wdr, k.result.trans h.result,
    k.lextOut.trans h.lextOut, k.inbox.trans h.inbox, k.wdata.trans h.wdata, k.world.trans h.world⟩

theorem SameOperation.payloadLen {s t : State} (h : SameOperation s t) : t.payloadLen = s.payloadLen := by
  simp [State.payloadLen, h.dw, h.opr]

theorem tick_sel_row {s : State} (hs : s.seq = .sel) :
    tick s = match s.csLowCall with
      | .ok _ t => .moved { t with seq := .cmd }
      | .fail t => .moved (t.abort .pinFailure)
      | .silent t => .waiting t := by
  cases s; cases hs; rfl

theorem tick_cmd_row {s : State} (hs : s.seq = .cmd) :
    tick s = match s.xferCall s.opr with
      | .ok _ t => .moved t.afterCommand
      | .fail t => .moved (t.abort .transportFailure)
      | .silent t => .waiting t := by
  cases s; cases hs; rfl

theorem tick_data_row {s : State} (hs : s.seq = .data) :
    tick s = match s.xferCall (payloadByte (formatOf s.opr) s.dw s.wdr s.idx.toNat) with
      | .ok rx t => .moved (t.afterData rx)
      | .fail t => .moved (t.abort .transportFailure)
      | .silent t => .waiting t := by
  cases s; cases hs; rfl

theorem tick_desel_row {s : State} (hs : s.seq = .desel) :
    tick s = match s.csHighCall with
      | .ok _ t => .moved t.succeed
      | .fail t => .moved (t.finish (.err .pinFailure))
      | .silent t => .waiting t := by
  cases s; cases hs; rfl

theorem tick_abort_row {s : State} (hs : s.seq = .abort) :
    tick s = match s.csHighCall with
      | .ok _ t | .fail t => .moved (t.finish (.err t.err))
      | .silent t => .waiting t := by
  cases s; cases hs; rfl

/-- An unanswered call leaves everything but the script (60_exceptions R189). -/
theorem tick_silent {s : State} {rest : List Reply} (hs : s.seq ≠ .idle) (h : s.replies = .silent :: rest) :
    tick s = .waiting { s with replies := rest } := by
  unfold tick
  split
  · contradiction
  · rw [State.csLowCall_silent h]
  · rw [State.xferCall_silent h]
  · rw [State.xferCall_silent h]
  · rw [State.csHighCall_silent h]
  · rw [State.csHighCall_silent h]

/-- Success in phase `DATA`, in one state: what it does to each part. -/
theorem State.afterData_spec (rx : Byte) (s : State) :
    SameOperation s (s.afterData rx) ∧
      ((s.idx.toNat + 1 < s.payloadLen ∧ (s.afterData rx).seq = s.seq ∧
          (s.afterData rx).idx = s.idx + 1) ∨
        (¬ s.idx.toNat + 1 < s.payloadLen ∧ (s.afterData rx).seq = .desel)) ∧
      (s.afterData rx).acc = (if isRead (formatOf s.opr) then accStep s.acc rx else s.acc) ∧
      (s.afterData rx).replies = s.replies ∧ (s.afterData rx).trace = s.trace ∧
      (s.afterData rx).csLine = s.csLine ∧ (s.afterData rx).dev = s.dev := by
  by_cases hr : isRead (formatOf s.opr) = true
  · have hp : ({ s with acc := accStep s.acc rx } : State).payloadLen = s.payloadLen := rfl
    by_cases hlt : s.idx.toNat + 1 < s.payloadLen
    · have he : s.afterData rx = { s with acc := accStep s.acc rx, idx := s.idx + 1 } := by
        simp only [State.afterData, hr, if_true, hp, if_pos hlt]
      rw [he]; exact ⟨⟨rfl, rfl, rfl, rfl, rfl, rfl, rfl, rfl⟩, .inl ⟨hlt, rfl, rfl⟩, by simp [hr], rfl, rfl, rfl, rfl⟩
    · have he : s.afterData rx = { s with acc := accStep s.acc rx, seq := .desel } := by
        simp only [State.afterData, hr, if_true, hp, if_neg hlt]
      rw [he]; exact ⟨⟨rfl, rfl, rfl, rfl, rfl, rfl, rfl, rfl⟩, .inr ⟨hlt, rfl⟩, by simp [hr], rfl, rfl, rfl, rfl⟩
  · by_cases hlt : s.idx.toNat + 1 < s.payloadLen
    · have he : s.afterData rx = { s with idx := s.idx + 1 } := by
        simp only [State.afterData, hr, Bool.false_eq_true, if_false, if_pos hlt]
      rw [he]; exact ⟨⟨rfl, rfl, rfl, rfl, rfl, rfl, rfl, rfl⟩, .inl ⟨hlt, rfl, rfl⟩, by simp [hr], rfl, rfl, rfl, rfl⟩
    · have he : s.afterData rx = { s with seq := .desel } := by
        simp only [State.afterData, hr, Bool.false_eq_true, if_false, if_neg hlt]
      rw [he]; exact ⟨⟨rfl, rfl, rfl, rfl, rfl, rfl, rfl, rfl⟩, .inr ⟨hlt, rfl⟩, by simp [hr], rfl, rfl, rfl, rfl⟩

/-- Success in phase `CMD`, in one state. -/
theorem State.afterCommand_spec (s : State) :
    SameOperation s s.afterCommand ∧
      ((s.payloadLen = 0 ∧ s.afterCommand.seq = .desel) ∨
        (s.payloadLen ≠ 0 ∧ s.afterCommand.seq = .data ∧ s.afterCommand.idx = 0 ∧
          (isRead (formatOf s.opr) = true → s.afterCommand.acc = 0))) ∧
      s.afterCommand.replies = s.replies ∧ s.afterCommand.trace = s.trace ∧
      s.afterCommand.csLine = s.csLine ∧ s.afterCommand.dev = s.dev := by
  by_cases hn : s.payloadLen = 0
  · have he : s.afterCommand = { s with seq := .desel } := by simp only [State.afterCommand, if_pos hn]
    rw [he]; exact ⟨⟨rfl, rfl, rfl, rfl, rfl, rfl, rfl, rfl⟩, .inl ⟨hn, rfl⟩, rfl, rfl, rfl, rfl⟩
  · have he : s.afterCommand =
        { s with seq := .data, idx := 0, acc := if isRead (formatOf s.opr) then 0 else s.acc } := by
      simp only [State.afterCommand, if_neg hn]
    rw [he]
    exact ⟨⟨rfl, rfl, rfl, rfl, rfl, rfl, rfl, rfl⟩, .inr ⟨hn, rfl, rfl, fun hr => by simp [hr]⟩,
      rfl, rfl, rfl, rfl⟩

/-- Phase `SEL`, success. -/
theorem tick_sel_ok {s : State} {rx : Byte} {rest : List Reply} (hs : s.seq = .sel)
    (h : s.replies = .ok rx :: rest) :
    ∃ t, tick s = .moved t ∧ SameOperation s t ∧ t.seq = .cmd ∧ t.replies = rest ∧
      t.trace = s.trace ++ [.csLow] ∧ t.csLine = .low ∧ (s.world = .arbitrary → t.dev = s.dev) ∧
      (s.world = .reference → t.dev = s.dev.select s.csLine) := by
  refine ⟨_, by rw [tick_sel_row hs, State.csLowCall_ok h], ?_, rfl, ?_, ?_, rfl, ?_, ?_⟩
  · constructor <;> simp
  · simp
  · simp
  · intro hw; simp [State.onDevice, hw]
  · intro hw; simp [State.onDevice, hw]

/-- Phase `SEL`, failure. -/
theorem tick_sel_fail {s : State} {rest : List Reply} (hs : s.seq = .sel) (h : s.replies = .fail :: rest) :
    ∃ t, tick s = .moved t ∧ SameOperation s t ∧ t.seq = .abort ∧ t.err = .pinFailure ∧
      t.replies = rest ∧ t.trace = s.trace ++ [.csLowFail] ∧ (s.world = .arbitrary → t.dev = s.dev) := by
  refine ⟨_, by rw [tick_sel_row hs, State.csLowCall_fail h], ?_, rfl, rfl, ?_, ?_, ?_⟩
  · constructor <;> simp
  · simp
  · simp
  · intro hw; simp [State.onDevice, hw]

/-- Phase `CMD`, success: to `DESEL` where there is no payload, else to the first payload byte. -/
theorem tick_cmd_ok {s : State} {rx : Byte} {rest : List Reply} (hs : s.seq = .cmd)
    (h : s.replies = .ok rx :: rest) :
    ∃ t, tick s = .moved t ∧ SameOperation s t ∧
      ((s.payloadLen = 0 ∧ t.seq = .desel) ∨
        (s.payloadLen ≠ 0 ∧ t.seq = .data ∧ t.idx = 0 ∧ (isRead (formatOf s.opr) = true → t.acc = 0))) ∧
      t.replies = rest ∧ t.trace = s.trace ++ [.xfer s.opr (s.received s.opr rx)] ∧
      t.csLine = s.csLine ∧ (s.world = .arbitrary → t.dev = s.dev) ∧
      (s.world = .reference → t.dev = (s.dev.exchange s.draws s.opr rx).2) := by
  rw [tick_cmd_row hs, State.xferCall_ok h]
  refine ⟨_, rfl, ?_⟩
  obtain ⟨k1, k2, k4, k5, k6, k7⟩ := State.afterCommand_spec
    ((State.onDevice (fun d => (d.exchange s.draws s.opr rx).2) { s with replies := rest }).emit
      (.xfer s.opr (s.received s.opr rx))).advance
  refine ⟨.trans ⟨by simp, by simp, by simp, by simp, by simp, by simp, by simp, by simp⟩ k1, ?_,
    by simp [k4], by simp [k5], by simp [k6], ?_, ?_⟩
  · simpa [State.payloadLen] using k2
  all_goals intro hw; rw [k7]; simp [State.onDevice, hw]

/-- Phase `CMD`, failure. -/
theorem tick_cmd_fail {s : State} {rest : List Reply} (hs : s.seq = .cmd) (h : s.replies = .fail :: rest) :
    ∃ t, tick s = .moved t ∧ SameOperation s t ∧ t.seq = .abort ∧ t.err = .transportFailure ∧
      t.replies = rest ∧ t.trace = s.trace ++ [.xferFail s.opr] ∧
      (s.world = .arbitrary → t.dev = s.dev) := by
  refine ⟨_, by rw [tick_cmd_row hs, State.xferCall_fail h], ?_, rfl, rfl, ?_, ?_, ?_⟩
  · constructor <;> simp
  · simp
  · simp
  · intro hw; simp [State.onDevice, hw]

/-- Phase `DATA`, success: a read accumulates; the loop goes on while `IDX + 1 < n`. -/
theorem tick_data_ok {s : State} {b rx : Byte} {rest : List Reply} (hs : s.seq = .data)
    (h : s.replies = .ok rx :: rest) (hb : b = payloadByte (formatOf s.opr) s.dw s.wdr s.idx.toNat) :
    ∃ t, tick s = .moved t ∧ SameOperation s t ∧
      ((s.idx.toNat + 1 < s.payloadLen ∧ t.seq = .data ∧ t.idx = s.idx + 1) ∨
        (¬ s.idx.toNat + 1 < s.payloadLen ∧ t.seq = .desel)) ∧
      t.acc = (if isRead (formatOf s.opr) then accStep s.acc (s.received b rx) else s.acc) ∧
      t.replies = rest ∧ t.trace = s.trace ++ [.xfer b (s.received b rx)] ∧
      t.csLine = s.csLine ∧ (s.world = .arbitrary → t.dev = s.dev) ∧
      (s.world = .reference → t.dev = (s.dev.exchange s.draws b rx).2) := by
  rw [tick_data_row hs, ← hb, State.xferCall_ok h]
  refine ⟨_, rfl, ?_⟩
  obtain ⟨k1, k2, k3, k4, k5, k6, k7⟩ := State.afterData_spec (s.received b rx)
    ((State.onDevice (fun d => (d.exchange s.draws b rx).2) { s with replies := rest }).emit
      (.xfer b (s.received b rx))).advance
  refine ⟨.trans ⟨by simp, by simp, by simp, by simp, by simp, by simp, by simp, by simp⟩ k1, ?_,
    by simpa using k3, by simp [k4], by simp [k5], by simp [k6], ?_, ?_⟩
  · simpa [State.payloadLen, hs] using k2
  all_goals intro hw; rw [k7]; simp [State.onDevice, hw]

/-- Phase `DATA`, failure. -/
theorem tick_data_fail {s : State} {rest : List Reply} (hs : s.seq = .data) (h : s.replies = .fail :: rest) :
    ∃ t, tick s = .moved t ∧ SameOperation s t ∧ t.seq = .abort ∧ t.err = .transportFailure ∧
      t.replies = rest ∧
      t.trace = s.trace ++ [.xferFail (payloadByte (formatOf s.opr) s.dw s.wdr s.idx.toNat)] ∧
      (s.world = .arbitrary → t.dev = s.dev) := by
  refine ⟨_, by rw [tick_data_row hs, State.xferCall_fail h], ?_, rfl, rfl, ?_, ?_, ?_⟩
  · constructor <;> simp
  · simp
  · simp
  · intro hw; simp [State.onDevice, hw]

/-- Phase `DESEL`, success: the commit, the result, and the end. -/
theorem tick_desel_ok {s : State} {rx : Byte} {rest : List Reply} (hs : s.seq = .desel)
    (h : s.replies = .ok rx :: rest) :
    ∃ t, tick s = .moved t ∧ t.seq = .idle ∧
      t.dw = (if s.opr = 0x90#8 then widthOfMdr1 (byteOperand s.wdr) else s.dw) ∧
      t.result = some (okResult (formatOf s.opr) s.acc) ∧ t.lextOut = s.lextOut ∧ t.inbox = s.inbox ∧
      t.wdata = s.wdata ∧ t.world = s.world ∧ t.replies = rest ∧ t.trace = s.trace ++ [.csHigh] ∧
      t.csLine = .high ∧ (s.world = .arbitrary → t.dev = s.dev) ∧
      (s.world = .reference → t.dev = s.dev.deselect s.draws) := by
  refine ⟨_, by rw [tick_desel_row hs, State.csHighCall_ok h], rfl, ?_⟩
  simp only [State.succeed, State.finish_dw, State.finish_result, State.finish_lextOut,
    State.finish_inbox, State.finish_wdata, State.finish_world, State.finish_replies, State.finish_trace,
    State.finish_csLine, State.finish_dev, State.commit_lextOut, State.commit_inbox, State.commit_wdata,
    State.commit_world, State.commit_replies, State.commit_trace, State.commit_csLine, State.commit_dev]
  refine ⟨?_, by simp, by simp, by simp, by simp, by simp, by simp, by simp, by simp, ?_, ?_⟩
  · unfold State.commit; simp only [State.advance_opr, State.emit_opr, State.onDevice_opr]
    split <;> simp
  all_goals intro hw; simp [State.onDevice, hw]

/-- Phase `DESEL`, failure: no commit and no second attempt. -/
theorem tick_desel_fail {s : State} {rest : List Reply} (hs : s.seq = .desel)
    (h : s.replies = .fail :: rest) :
    ∃ t, tick s = .moved t ∧ t.seq = .idle ∧ t.dw = s.dw ∧ t.result = some (.err .pinFailure) ∧
      t.lextOut = s.lextOut ∧ t.inbox = s.inbox ∧ t.wdata = s.wdata ∧ t.world = s.world ∧
      t.replies = rest ∧ t.trace = s.trace ++ [.csHighFail] ∧ (s.world = .arbitrary → t.dev = s.dev) := by
  refine ⟨_, by rw [tick_desel_row hs, State.csHighCall_fail h], rfl, ?_⟩
  refine ⟨by simp, by simp, by simp, by simp, by simp, by simp, by simp, by simp, ?_⟩
  intro hw; simp [State.onDevice, hw]

/-- Phase `ABORT`, answered either way: the latched kind is the result. -/
theorem tick_abort {s : State} {r : Reply} {rest : List Reply} (hs : s.seq = .abort) (hr : r ≠ .silent)
    (h : s.replies = r :: rest) :
    ∃ t, tick s = .moved t ∧ t.seq = .idle ∧ t.dw = s.dw ∧ t.result = some (.err s.err) ∧
      t.lextOut = s.lextOut ∧ t.inbox = s.inbox ∧ t.wdata = s.wdata ∧ t.world = s.world ∧
      t.replies = rest ∧
      t.trace = s.trace ++ [match r with | .ok _ => .csHigh | _ => .csHighFail] ∧
      (s.world = .arbitrary → t.dev = s.dev) := by
  cases r with
  | silent => exact absurd rfl hr
  | ok rx =>
    refine ⟨_, by rw [tick_abort_row hs, State.csHighCall_ok h], rfl, ?_⟩
    refine ⟨by simp, by simp, by simp, by simp, by simp, by simp, by simp, by simp, ?_⟩
    intro hw; simp [State.onDevice, hw]
  | fail =>
    refine ⟨_, by rw [tick_abort_row hs, State.csHighCall_fail h], rfl, ?_⟩
    refine ⟨by simp, by simp, by simp, by simp, by simp, by simp, by simp, by simp, ?_⟩
    intro hw; simp [State.onDevice, hw]

end Sys2Proof.Machine
end

