-- ==== Sys2Proof/Laws/Rows.lean ====
section
/-!
SUPPORT. Every row of the sequencer's table (30_encoding R90) at once, whatever the environment answers: an
invariant of the sequencer is proved by cases on `Row`.
-/

namespace Sys2Proof.Machine

/-- The rows of the sequencer's table (30_encoding R90, 60_exceptions R175), whatever the environment
answered: `s` before the row's call, `t` after it. -/
inductive Row (s t : State) : Prop where
  /-- `SEL`, success. -/
  | selected (phase : s.seq = .sel) (same : SameOperation s t) (seq : t.seq = .cmd)
      (trace : t.trace = s.trace ++ [.csLow]) (line : t.csLine = .low)
      (dev : s.world = .reference → t.dev = s.dev.select s.csLine)
  /-- `SEL`, failure. -/
  | notSelected (phase : s.seq = .sel) (same : SameOperation s t) (seq : t.seq = .abort)
      (err : t.err = .pinFailure) (trace : t.trace = s.trace ++ [.csLowFail])
  /-- `CMD`, success, no payload. -/
  | commandOnly (phase : s.seq = .cmd) (same : SameOperation s t) (len : s.payloadLen = 0)
      (seq : t.seq = .desel) (trace : ∃ rx, t.trace = s.trace ++ [.xfer s.opr rx])
      (line : t.csLine = s.csLine)
      (dev : s.world = .reference → ∃ k rx, t.dev = (s.dev.exchange k s.opr rx).2)
  /-- `CMD`, success, with a payload to come. -/
  | command (phase : s.seq = .cmd) (same : SameOperation s t) (len : s.payloadLen ≠ 0)
      (seq : t.seq = .data) (idx : t.idx = 0) (acc : isRead (formatOf s.opr) = true → t.acc = 0)
      (trace : ∃ rx, t.trace = s.trace ++ [.xfer s.opr rx]) (line : t.csLine = s.csLine)
      (dev : s.world = .reference → ∃ k rx, t.dev = (s.dev.exchange k s.opr rx).2)
  /-- `CMD`, failure. -/
  | commandFailed (phase : s.seq = .cmd) (same : SameOperation s t) (seq : t.seq = .abort)
      (err : t.err = .transportFailure) (trace : t.trace = s.trace ++ [.xferFail s.opr])
  /-- `DATA`, success, more payload bytes to come. -/
  | more (tx rx : Byte) (phase : s.seq = .data) (same : SameOperation s t)
      (sent : tx = payloadByte (formatOf s.opr) s.dw s.wdr s.idx.toNat)
      (len : s.idx.toNat + 1 < s.payloadLen) (seq : t.seq = .data) (idx : t.idx = s.idx + 1)
      (acc : t.acc = if isRead (formatOf s.opr) then accStep s.acc rx else s.acc)
      (trace : t.trace = s.trace ++ [.xfer tx rx]) (line : t.csLine = s.csLine)
      (dev : s.world = .reference →
        ∃ k r, t.dev = (s.dev.exchange k tx r).2 ∧ rx = (s.dev.exchange k tx r).1)
  /-- `DATA`, success, the last payload byte. -/
  | last (tx rx : Byte) (phase : s.seq = .data) (same : SameOperation s t)
      (sent : tx = payloadByte (formatOf s.opr) s.dw s.wdr s.idx.toNat)
      (len : ¬ s.idx.toNat + 1 < s.payloadLen) (seq : t.seq = .desel)
      (acc : t.acc = if isRead (formatOf s.opr) then accStep s.acc rx else s.acc)
      (trace : t.trace = s.trace ++ [.xfer tx rx]) (line : t.csLine = s.csLine)
      (dev : s.world = .reference →
        ∃ k r, t.dev = (s.dev.exchange k tx r).2 ∧ rx = (s.dev.exchange k tx r).1)
  /-- `DATA`, failure. -/
  | dataFailed (phase : s.seq = .data) (same : SameOperation s t) (seq : t.seq = .abort)
      (err : t.err = .transportFailure)
      (trace : t.trace = s.trace ++ [.xferFail (payloadByte (formatOf s.opr) s.dw s.wdr s.idx.toNat)])
  /-- `DESEL`, success: the commit and the result. -/
  | completed (phase : s.seq = .desel) (host : KeepsHostSide s t) (seq : t.seq = .idle)
      (dw : t.dw = if s.opr = 0x90#8 then widthOfMdr1 (byteOperand s.wdr) else s.dw)
      (result : t.result = some (okResult (formatOf s.opr) s.acc))
      (trace : t.trace = s.trace ++ [.csHigh]) (line : t.csLine = .high)
  /-- `DESEL`, failure. -/
  | notDeselected (phase : s.seq = .desel) (host : KeepsHostSide s t) (seq : t.seq = .idle)
      (dw : t.dw = s.dw) (result : t.result = some (.err .pinFailure))
      (trace : t.trace = s.trace ++ [.csHighFail])
  /-- `ABORT`, answered either way. -/
  | aborted (phase : s.seq = .abort) (host : KeepsHostSide s t) (seq : t.seq = .idle)
      (dw : t.dw = s.dw) (result : t.result = some (.err s.err))
      (trace : t.trace = s.trace ++ [.csHigh] ∨ t.trace = s.trace ++ [.csHighFail])

theorem SameEngine.operation {s t : State} (h : SameEngine s t) : SameOperation s t :=
  ⟨h.dw, h.opr, h.wdr, h.result, h.lextOut, h.inbox, h.wdata, h.world⟩

theorem SameEngine.host {s t : State} (h : SameEngine s t) : KeepsHostSide s t :=
  ⟨h.inbox, h.wdata, h.lextOut, h.world⟩

theorem SameEngine.payloadLen {s t : State} (h : SameEngine s t) : t.payloadLen = s.payloadLen :=
  h.operation.payloadLen

/-- A call that is answered is one of the rows. -/
theorem tick_row {s t : State} (h : tick s = .moved t) : Row s t := by
  cases hp : s.seq with
  | idle => unfold tick at h; rw [hp] at h; cases h
  | sel =>
    rw [tick_sel_row hp] at h
    rcases s.csLowCall_spec with ⟨rx, u, hc, he, ht, hl, hd⟩ | ⟨u, hc, he, ht⟩ | ⟨u, hc, _⟩ <;>
      rw [hc] at h <;> cases h
    · exact .selected hp ⟨he.dw, he.opr, he.wdr, he.result, he.lextOut, he.inbox, he.wdata, he.world⟩ rfl ht hl hd
    · exact .notSelected hp ⟨he.dw, he.opr, he.wdr, he.result, he.lextOut, he.inbox, he.wdata, he.world⟩ rfl rfl ht
  | cmd =>
    rw [tick_cmd_row hp] at h
    rcases s.xferCall_spec s.opr with ⟨rx, u, k, r, hc, he, ht, hl, hd⟩ | ⟨u, hc, he, ht⟩ | ⟨u, hc, _⟩ <;>
      rw [hc] at h <;> cases h
    · obtain ⟨k1, k2, _, k5, k6, k7⟩ := u.afterCommand_spec
      rcases k2 with ⟨hn, hq⟩ | ⟨hn, hq, hi, ha⟩
      · exact .commandOnly hp (he.operation.trans k1) (he.payloadLen ▸ hn) hq ⟨rx, k5.trans ht⟩ (k6.trans hl)
          fun hw => ⟨k, r, k7.trans (hd hw).1⟩
      · exact .command hp (he.operation.trans k1) (he.payloadLen ▸ hn) hq hi (he.opr ▸ ha) ⟨rx, k5.trans ht⟩
          (k6.trans hl) fun hw => ⟨k, r, k7.trans (hd hw).1⟩
    · exact .commandFailed hp ⟨he.dw, he.opr, he.wdr, he.result, he.lextOut, he.inbox, he.wdata, he.world⟩ rfl rfl ht
  | data =>
    rw [tick_data_row hp] at h
    rcases s.xferCall_spec (payloadByte (formatOf s.opr) s.dw s.wdr s.idx.toNat) with
      ⟨rx, u, k, r, hc, he, ht, hl, hd⟩ | ⟨u, hc, he, ht⟩ | ⟨u, hc, _⟩ <;> rw [hc] at h <;> cases h
    · obtain ⟨k1, k2, k3, _, k5, k6, k7⟩ := u.afterData_spec rx
      have ka : (u.afterData rx).acc = if isRead (formatOf s.opr) then accStep s.acc rx else s.acc := by
        rw [k3, he.opr, he.acc]
      rcases k2 with ⟨hn, hq, hi⟩ | ⟨hn, hq⟩
      · exact .more _ rx hp (he.operation.trans k1) rfl (by rw [← he.payloadLen, ← he.idx]; exact hn)
          (hq.trans (he.seq.trans hp)) (hi.trans (by rw [he.idx])) ka (k5.trans ht) (k6.trans hl)
          fun hw => ⟨k, r, k7.trans (hd hw).1, (hd hw).2⟩
      · exact .last _ rx hp (he.operation.trans k1) rfl (by rw [← he.payloadLen, ← he.idx]; exact hn) hq ka
          (k5.trans ht) (k6.trans hl) fun hw => ⟨k, r, k7.trans (hd hw).1, (hd hw).2⟩
    · exact .dataFailed hp ⟨he.dw, he.opr, he.wdr, he.result, he.lextOut, he.inbox, he.wdata, he.world⟩ rfl rfl ht
  | desel =>
    rw [tick_desel_row hp] at h
    rcases s.csHighCall_spec with ⟨rx, u, hc, he, ht, hl⟩ | ⟨u, hc, he, ht⟩ | ⟨u, hc, _⟩ <;>
      rw [hc] at h <;> cases h
    · refine .completed hp ?_ rfl ?_ ?_ ?_ ?_
      · constructor <;> simp [State.succeed, he.inbox, he.wdata, he.lextOut, he.world]
      · simp only [State.succeed, State.finish_dw, State.commit, he.opr, he.wdr]
        split <;> simp [he.dw]
      · simp [State.succeed, he.opr, he.acc]
      · simp [State.succeed, ht]
      · simp [State.succeed, hl]
    · refine .notDeselected hp ?_ rfl ?_ ?_ ?_
      · constructor <;> simp [he.inbox, he.wdata, he.lextOut, he.world]
      · simp [he.dw]
      · simp
      · simp [ht]
  | abort =>
    rw [tick_abort_row hp] at h
    rcases s.csHighCall_spec with ⟨rx, u, hc, he, ht, hl⟩ | ⟨u, hc, he, ht⟩ | ⟨u, hc, _⟩ <;>
      rw [hc] at h <;> cases h
    · refine .aborted hp ?_ rfl ?_ ?_ (.inl ?_)
      · constructor <;> simp [he.inbox, he.wdata, he.lextOut, he.world]
      · simp [he.dw]
      · simp [he.err]
      · simp [ht]
    · refine .aborted hp ?_ rfl ?_ ?_ (.inr ?_)
      · constructor <;> simp [he.inbox, he.wdata, he.lextOut, he.world]
      · simp [he.dw]
      · simp [he.err]
      · simp [ht]

/-- A call that is not answered has changed nothing of the engine, the line, the peripheral or the trace. -/
theorem tick_waiting {s t : State} (h : tick s = .waiting t) :
    SameEngine s t ∧ t.trace = s.trace ∧ t.csLine = s.csLine ∧ t.dev = s.dev := by
  cases hp : s.seq with
  | idle =>
    unfold tick at h; rw [hp] at h; cases h
    exact ⟨⟨rfl, rfl, rfl, rfl, rfl, rfl, rfl, rfl, rfl, rfl, rfl, rfl⟩, rfl, rfl, rfl⟩
  | sel =>
    rw [tick_sel_row hp] at h
    rcases s.csLowCall_spec with ⟨rx, u, hc, _⟩ | ⟨u, hc, _⟩ | ⟨u, hc, k⟩ <;> rw [hc] at h <;> cases h
    exact k
  | cmd =>
    rw [tick_cmd_row hp] at h
    rcases s.xferCall_spec s.opr with ⟨_, u, _, _, hc, _⟩ | ⟨u, hc, _⟩ | ⟨u, hc, k⟩ <;> rw [hc] at h <;>
      cases h
    exact k
  | data =>
    rw [tick_data_row hp] at h
    rcases s.xferCall_spec (payloadByte (formatOf s.opr) s.dw s.wdr s.idx.toNat) with
      ⟨_, u, _, _, hc, _⟩ | ⟨u, hc, _⟩ | ⟨u, hc, k⟩ <;> rw [hc] at h <;> cases h
    exact k
  | desel =>
    rw [tick_desel_row hp] at h
    rcases s.csHighCall_spec with ⟨_, u, hc, _⟩ | ⟨u, hc, _⟩ | ⟨u, hc, k⟩ <;> rw [hc] at h <;> cases h
    exact k
  | abort =>
    rw [tick_abort_row hp] at h
    rcases s.csHighCall_spec with ⟨_, u, hc, _⟩ | ⟨u, hc, _⟩ | ⟨u, hc, k⟩ <;> rw [hc] at h <;> cases h
    exact k

end Sys2Proof.Machine
end

