-- ==== Sys2Proof/Laws/Step.lean ====
section
/-!
SUPPORT. A step by what the host presents, and the coherence of a running operation.
-/

namespace Sys2Proof.Machine

theorem step_of_empty {s : State} (h : s.inbox = []) : step s = s.resume := by simp [step, h]

theorem step_of_waiting {s : State} {i : HostInput} {rest : List HostInput} (h : s.inbox = i :: rest)
    (hw : HostInput.waits i s.seq = true) : step s = s.resume := by simp [step, h, hw]

theorem step_of_reset {s : State} {rest : List HostInput} (h : s.inbox = .reset :: rest) :
    step s = .next (s.present .reset rest).resetInput := by simp [step, h, HostInput.waits, decode]

theorem step_of_quiet {s : State} {rest : List HostInput} (h : s.inbox = .quiet :: rest) :
    step s = (s.present .quiet rest).resume := by simp [step, h, HostInput.waits, decode]

theorem State.resume_of_coherent {s : State} (h : s.coherent = true) :
    s.resume = .next (runSequencer Config.callLimit s) := by simp [State.resume, h]

/-- What coherence says, phase by phase (30_encoding R90). -/
theorem State.coherent_iff (s : State) :
    s.coherent = true ↔
      (s.seq ≠ .idle → (rowOf s.opr).isSome = true ∧
        (readsWidth (formatOf s.opr) = true → widthValid s.dw = true)) ∧
      (s.seq = .data → s.idx.toNat < s.payloadLen) := by
  have h : s.operationCoherent = true ↔ (rowOf s.opr).isSome = true ∧
      (readsWidth (formatOf s.opr) = true → widthValid s.dw = true) := by
    unfold State.operationCoherent
    cases (rowOf s.opr).isSome <;> cases readsWidth (formatOf s.opr) <;> cases widthValid s.dw <;> simp
  unfold State.coherent
  cases hs : s.seq <;> simp [h]

end Sys2Proof.Machine
end

