-- ==== Sys2Proof/Tests/Slice0.lean ====
section
/-!
SUPPORT. Tests. Expected values come from the vectors of 95_test_vectors (named in each comment) and from the
encodings of 30_encoding R82; the last part shows, for each statement with hypotheses, a state that meets them.
-/

namespace Sys2Proof.Tests

open Sys2Proof.Machine Host

/-! ### Ill-formed presentations are refused -/

/-- V116, V118 and V123 are no operations; the reset input and a host that does nothing are none
either; `RD_CNTR` is one. -/
theorem test_ill_formed_refused :
    (HostInput.request 0x61#8 0).wellFormed = false ∧ (HostInput.request 0x58#8 0).wellFormed = false ∧
      (HostInput.request 0xD8#8 0).wellFormed = false ∧ HostInput.reset.wellFormed = false ∧
      HostInput.quiet.wellFormed = false ∧ decode .quiet = .error .nothingPresented ∧
      (HostInput.request 0x60#8 0).wellFormed = true := by decide

/-- V115 to V126: the decoder refuses each, by name. -/
theorem test_gaps_refused :
    [0x00#8, 0x61#8, 0x40#8, 0x58#8, 0x78#8, 0x80#8, 0xA0#8, 0xC8#8, 0xD8#8, 0xF0#8, 0xFF#8, 0x09#8].all
      (fun op => decide (decode (.request op 0) = .error (.illegalOp op))) = true := by decide

/-! ### Decoding: every command byte of R82 written out as action, register and three zero bits -/

theorem test_decode_clears :
    decode (.request 0b00001000#8 7) = .ok .clrMdr0 ∧ decode (.request 0b00010000#8 7) = .ok .clrMdr1 ∧
      decode (.request 0b00100000#8 7) = .ok .clrCntr ∧ decode (.request 0b00110000#8 7) = .ok .clrStr := by
  decide

theorem test_decode_reads :
    decode (.request 0b01001000#8 7) = .ok .rdMdr0 ∧ decode (.request 0b01010000#8 7) = .ok .rdMdr1 ∧
      decode (.request 0b01100000#8 7) = .ok .rdCntr ∧ decode (.request 0b01101000#8 7) = .ok .rdOtr ∧
      decode (.request 0b01110000#8 7) = .ok .rdStr := by decide

theorem test_decode_writes :
    decode (.request 0b10001000#8 0xAABBCCDD#32) = .ok (.wrMdr0 0xDD#8) ∧
      decode (.request 0b10010000#8 0xAABBCC42#32) = .ok (.wrMdr1 0x42#8) ∧
      decode (.request 0b10011000#8 0xAABBCCDD#32) = .ok (.wrDtr 0xAABBCCDD#32) := by decide

theorem test_decode_loads :
    decode (.request 0b11100000#8 7) = .ok .loadCntr ∧ decode (.request 0b11101000#8 7) = .ok .loadOtr := by
  decide

theorem test_decode_lext : decode (.lext 0x9234#32) = .ok (.lext 0x9234#32) := by decide

/-! ### One step of each operation -/

/-- A machine in `IDLE` with a width and a script. -/
def ready (dw : Width) (replies : List Reply) : State := { State.reset with dw := dw, replies := replies }

/-- A machine attached to the reference peripheral. -/
def attached (dw : Width) (dev : Device) (replies : List Reply) : State :=
  { State.reset with dw := dw, replies := replies, world := .reference, dev := dev }

/-- What the vectors list: result, `DW`, trace. -/
def seen : Outcome State Fault Refusal → Option (Option Result × Width × List Event)
  | .next t => some (t.result, t.dw, t.trace)
  | _ => none

/-- V1, at an invalid width. -/
theorem test_clr_mdr0 :
    seen (exec .clrMdr0 (ready 5 [.ok 1, .ok 2, .ok 3])) =
      some (some .done, 5, [.csLow, .xfer 0x08 2, .csHigh]) := by decide

/-- V7: `DW` stays. -/
theorem test_clr_mdr1 :
    seen (exec .clrMdr1 (ready 1 [.ok 1, .ok 2, .ok 3])) =
      some (some .done, 1, [.csLow, .xfer 0x10 2, .csHigh]) := by decide

/-- V131: the command byte fails and so does the closing `CsHigh()`. -/
theorem test_clr_cntr_fails :
    seen (exec .clrCntr (ready 4 [.ok 1, .fail, .fail, .ok 9])) =
      some (some (.err .transportFailure), 4, [.csLow, .xferFail 0x20, .csHighFail]) := by decide

/-- V4. -/
theorem test_clr_str :
    seen (exec .clrStr (ready 4 [.ok 1, .ok 2, .ok 3])) =
      some (some .done, 4, [.csLow, .xfer 0x30 2, .csHigh]) := by decide

/-- V9. -/
theorem test_rd_mdr0 :
    seen (exec .rdMdr0 (ready 4 [.ok 1, .ok 2, .ok 0xFF, .ok 3])) =
      some (some (.byte 0xFF), 4, [.csLow, .xfer 0x48 2, .xfer 0x00 0xFF, .csHigh]) := by decide

/-- V110: at an invalid width, and `DW` is not taken from the value read. -/
theorem test_rd_mdr1 :
    seen (exec .rdMdr1 (ready 0 [.ok 1, .ok 2, .ok 3, .ok 4])) =
      some (some (.byte 3), 0, [.csLow, .xfer 0x50 2, .xfer 0x00 3, .csHigh]) := by decide

/-- V12. -/
theorem test_rd_str :
    seen (exec .rdStr (ready 4 [.ok 1, .ok 2, .ok 0x80, .ok 3])) =
      some (some (.byte 0x80), 4, [.csLow, .xfer 0x70 2, .xfer 0x00 0x80, .csHigh]) := by decide

/-- V28. -/
theorem test_rd_cntr :
    seen (exec .rdCntr (ready 3 [.ok 1, .ok 2, .ok 0x92, .ok 0x34, .ok 0xAB, .ok 3])) =
      some (some (.word 0x009234AB), 3,
        [.csLow, .xfer 0x60 2, .xfer 0x00 0x92, .xfer 0x00 0x34, .xfer 0x00 0xAB, .csHigh]) := by decide

/-- V139. -/
theorem test_rd_cntr_fails :
    seen (exec .rdCntr (ready 2 [.ok 1, .ok 2, .ok 0x12, .fail, .ok 3])) =
      some (some (.err .transportFailure), 2,
        [.csLow, .xfer 0x60 2, .xfer 0x00 0x12, .xferFail 0x00, .csHigh]) := by decide

/-- V34. -/
theorem test_rd_otr :
    seen (exec .rdOtr (ready 2 [.ok 1, .ok 2, .ok 0x92, .ok 0x34, .ok 3])) =
      some (some (.word 0x00009234), 2,
        [.csLow, .xfer 0x68 2, .xfer 0x00 0x92, .xfer 0x00 0x34, .csHigh]) := by decide

/-- V108. -/
theorem test_rd_otr_invalid_width :
    seen (exec .rdOtr (ready 5 [.ok 1])) = some (some (.err .invalidWidthState), 5, []) := by decide

/-- V37. -/
theorem test_wr_mdr0 :
    seen (exec (.wrMdr0 0x03) (ready 4 [.ok 1, .ok 2, .ok 5, .ok 3])) =
      some (some .done, 4, [.csLow, .xfer 0x88 2, .xfer 0x03 5, .csHigh]) := by decide

/-- V47: bits above `[1:0]` go to the peripheral and do not count for the width. -/
theorem test_wr_mdr1 :
    seen (exec (.wrMdr1 0x42) (ready 7 [.ok 1, .ok 2, .ok 5, .ok 3])) =
      some (some .done, 2, [.csLow, .xfer 0x90 2, .xfer 0x42 5, .csHigh]) := by decide

/-- V145: the closing `CsHigh()` fails, `DW` stays, and there is no second `CsHigh()`. -/
theorem test_wr_mdr1_fails :
    seen (exec (.wrMdr1 0x02) (ready 4 [.ok 1, .ok 2, .ok 5, .fail])) =
      some (some (.err .pinFailure), 4, [.csLow, .xfer 0x90 2, .xfer 0x02 5, .csHighFail]) := by decide

/-- V56. -/
theorem test_wr_dtr :
    seen (exec (.wrDtr 0xAABBCCDD) (ready 3 [.ok 1, .ok 2, .ok 5, .ok 6, .ok 7, .ok 3])) =
      some (some .done, 3,
        [.csLow, .xfer 0x98 2, .xfer 0xBB 5, .xfer 0xCC 6, .xfer 0xDD 7, .csHigh]) := by decide

/-- V147. -/
theorem test_wr_dtr_fails :
    seen (exec (.wrDtr 0xAABBCCDD) (ready 3 [.fail, .ok 1])) =
      some (some (.err .pinFailure), 3, [.csLowFail, .csHigh]) := by decide

/-- V5. -/
theorem test_load_cntr :
    seen (exec .loadCntr (ready 4 [.ok 1, .ok 2, .ok 3])) =
      some (some .done, 4, [.csLow, .xfer 0xE0 2, .csHigh]) := by decide

/-- V112. -/
theorem test_load_otr :
    seen (exec .loadOtr (ready 5 [.ok 1, .ok 2, .ok 3])) =
      some (some .done, 5, [.csLow, .xfer 0xE8 2, .csHigh]) := by decide

/-- V89. -/
theorem test_lext :
    [1#3, 2#3, 3#3, 4#3].map (fun dw => signExtend dw 0x00BBCCDD#32) =
      [.word 0xFFFFFFDD#32, .word 0xFFFFCCDD#32, .word 0xFFBBCCDD#32, .word 0x00BBCCDD#32] := by decide

/-- V83 and V96: bit 15 alone does not count at `DW` = 1; an invalid width fails for every input. -/
theorem test_lext_corners :
    signExtend 1 0x00008000#32 = .word 0x00008000#32 ∧ signExtend 0 0 = .err .invalidWidthState := by decide

/-- V142 with the reply still to come: the operation waits in `SEL`, no result is pending, and R189 takes it up
again in `ABORT`. -/
theorem test_waits_then_fails :
    (match exec (.wrMdr1 0x02) (ready 4 [.silent, .fail, .ok 1]) with
      | .next t => (t.seq, t.result, seen (step t))
      | _ => (.idle, none, none)) =
      (.sel, none, some (some (.err .pinFailure), 4, [.csLowFail, .csHigh])) := by decide

/-! ### The reference peripheral (20_memory R73 to R76) -/

/-- A peripheral at width 3 with every register different. -/
def sample : Device :=
  { mdr0 := 0x11, mdr1 := 0x01, str := 0x22, dtr := 0xD1D2D3, cntr := 0xC1C2C3, otr := 0x0A0B0C,
    frame := .closed }

/-- The peripheral's registers after a step. -/
def deviceAfter : Outcome State Fault Refusal → Option Device
  | .next t => some t.dev
  | _ => none

theorem test_peripheral_load_cntr :
    deviceAfter (exec .loadCntr (attached 3 sample [.ok 1, .ok 2, .ok 3])) =
      some { sample with cntr := 0xD1D2D3 } := by decide

theorem test_peripheral_load_otr :
    deviceAfter (exec .loadOtr (attached 3 sample [.ok 1, .ok 2, .ok 3])) =
      some { sample with otr := 0xC1C2C3 } := by decide

theorem test_peripheral_clr_str :
    deviceAfter (exec .clrStr (attached 3 sample [.ok 1, .ok 2, .ok 3])) = some { sample with str := 0 } := by
  decide

/-- V89's word written at width 3: the byte above the width is zeroed (R75). -/
theorem test_peripheral_wr_dtr :
    deviceAfter (exec (.wrDtr 0xAABBCCDD) (attached 3 sample [.ok 1, .ok 2, .ok 5, .ok 6, .ok 7, .ok 3])) =
      some { sample with dtr := 0x00BBCCDD } := by decide

/-- R74: the peripheral's bytes, not the script's, are received. -/
theorem test_peripheral_rd_otr :
    (seen (exec .rdOtr (attached 3 sample [.ok 1, .ok 2, .ok 5, .ok 6, .ok 7, .ok 3]))).map Prod.fst =
      some (some (.word 0x0A0B0C)) := by decide

/-! ### The hypotheses of the statements can be met -/

/-- `RD_CNTR` at `DW` = 2 after its first payload byte (S7). -/
def reading : State :=
  { State.reset with
    dw := 2, seq := .data, idx := 1, opr := 0x60, acc := 0x12, csLine := .low, replies := [.ok 0x34, .ok 0] }

/-- S7: the waiting read goes on while the host does nothing, and the host's next action stays for later. -/
theorem test_quiet_resumes :
    (match step { reading with inbox := [.quiet, .lext 5] } with
      | .next t => (t.result, t.inbox)
      | _ => (none, [])) = (some (.word 0x1234), [.lext 5]) := by decide

theorem reading_sound : Sound reading := ⟨by decide, by decide, by decide, by decide⟩

/-- `ResetInputConstructs`: in mid-operation, and in `IDLE`. -/
theorem witness_reset_input :
    (∃ s : State, s.inbox = [.reset] ∧ s.seq = .data) ∧ ∃ s : State, s.inbox = [.reset] ∧ s.seq = .idle :=
  ⟨⟨{ reading with inbox := [.reset] }, rfl, rfl⟩, ⟨{ State.reset with inbox := [.reset] }, rfl, rfl⟩⟩

/-- `StepKeepsSoundness`, `ResumedOperationsContinueTheirFrame`: in mid-operation. -/
theorem witness_sound : ∃ s : State, Sound s ∧ s.seq ≠ .idle := ⟨reading, reading_sound, by decide⟩

/-- `ResumedOperationsContinueTheirFrame`, the clause on the first byte: `SEL` and `CMD`. -/
theorem witness_resumed :
    (∃ s : State, Sound s ∧ s.seq = .sel) ∧ ∃ s : State, Sound s ∧ s.seq = .cmd :=
  ⟨⟨{ reading with seq := .sel }, ⟨by decide, by decide, by decide, by decide⟩, rfl⟩,
    ⟨{ reading with seq := .cmd }, ⟨by decide, by decide, by decide, by decide⟩, rfl⟩⟩

/-- `StepKeepsPeripheralInStep`: attached, in the frame, and stepping. -/
theorem witness_in_step :
    ∃ s t : State, Sound s ∧ InStep s ∧ s.world = .reference ∧ s.seq = .data ∧ step s = .next t :=
  ⟨{ reading with world := .reference, dev := { sample with frame := .payload 0x60 1 } }, _,
    ⟨by decide, by decide, by decide, by decide⟩, fun _ => .inr rfl, rfl, rfl, rfl⟩

/-- `DecodeOfEncode`: other bits above a byte operand; any write data for an operation without operand. -/
theorem witness_decode_of_encode :
    (∃ w w' : Word, encode (.wrMdr1 0x42) = .request 0x90#8 w ∧ w' ≠ w ∧ w'.setWidth 8 = w.setWidth 8) ∧
      ∃ w w' : Word, encode .clrStr = .request 0x30#8 w ∧ w' ≠ w :=
  ⟨⟨0x42, 0xAABBCC42, rfl, by decide, by decide⟩, ⟨0, 0xFFFFFFFF, rfl, by decide⟩⟩

/-- `WireBytesNameTheOperation`: two different `WR_DTR` that send the same bytes at `DW` = 2. -/
theorem witness_wire_bytes :
    ∃ (dw : Width) (i j : Instr), widthValid dw = true ∧ commandByte i ≠ none ∧
      wireBytes dw i = wireBytes dw j ∧ j ≠ i :=
  ⟨2, .wrDtr 0x10005, .wrDtr 0x20005, by decide, by decide, by decide, by decide⟩

/-- `RequestDecodesBySelectCode`, `UnlistedSelectCodeIsRefused`: next to a listed code, and a listed one. -/
theorem witness_select_code : 0x60#8 ∈ selectCodes ∧ 0x61#8 ∉ selectCodes := by decide

/-- `StepRunsDecoded`: a request in `IDLE`, and a word on the `LEXT` port in mid-operation. -/
theorem witness_step_runs :
    (∃ s : State, s.inbox = [.request 0x60 0] ∧ decode (.request 0x60 0) = .ok .rdCntr ∧ s.seq = .idle) ∧
      ∃ s : State, s.inbox = [.lext 5] ∧ decode (.lext 5) = .ok (.lext 5) ∧ s.seq = .data :=
  ⟨⟨{ State.reset with inbox := [.request 0x60 0] }, rfl, rfl, rfl⟩,
    ⟨{ reading with inbox := [.lext 5] }, rfl, rfl, rfl⟩⟩

/-- `UnlistedSelectCodeIsRefused`. -/
theorem witness_unlisted :
    ∃ s : State, s.seq = .idle ∧ s.inbox = [.request 0x61 7] ∧ 0x61#8 ∉ selectCodes :=
  ⟨{ State.reset with inbox := [.request 0x61 7] }, rfl, rfl, by decide⟩

/-- `BusyEngineHoldsRequests`: a request in mid-operation, and the step answers a next state. -/
theorem witness_busy :
    ∃ s t : State, s.seq ≠ .idle ∧ s.inbox = [.request 0x20 7] ∧ step s = .next t :=
  ⟨{ reading with inbox := [.request 0x20 7] }, _, by decide, rfl, rfl⟩

/-- `TraceOnlyGrows`: each of the steps that add no event. -/
theorem witness_trace :
    (∃ s t : State, step s = .next t ∧ s.inbox = [.reset]) ∧
      (∃ s t : State, step s = .next t ∧ s.inbox = [.lext 5]) ∧
      (∃ s t : State, step s = .next t ∧ s.inbox = [.quiet] ∧ s.seq = .idle) ∧
      (∃ s t : State, step s = .next t ∧ s.inbox = [] ∧ s.seq = .idle) ∧
      (∃ s t : State, step s = .next t ∧ s.inbox = [.request 0x61 0] ∧ s.seq = .idle ∧ 0x61#8 ∉ selectCodes) ∧
      ∃ s t : State, step s = .next t ∧ s.inbox = [.request 0x60 0] ∧ s.seq = .idle ∧
        widthValid s.dw = false ∧ decode (.request 0x60 0) = .ok .rdCntr ∧ usesWidth .rdCntr = true :=
  ⟨⟨{ reading with inbox := [.reset] }, _, rfl, rfl⟩, ⟨{ reading with inbox := [.lext 5] }, _, rfl, rfl⟩,
    ⟨{ State.reset with inbox := [.quiet] }, _, rfl, rfl, rfl⟩, ⟨State.reset, _, rfl, rfl, rfl⟩,
    ⟨{ State.reset with inbox := [.request 0x61 0] }, _, rfl, rfl, rfl, by decide⟩,
    ⟨{ ready 0 [] with inbox := [.request 0x60 0] }, _, rfl, rfl, rfl, rfl, rfl, rfl⟩⟩

/-- `SignExtendCases`, `LextResultBits`, `SignExtendLaws`, `SignExtendIsTwosComplement`, `InvalidWidthIsRefused`: the widths that
end each clause's range, with the sign bit set. -/
theorem witness_sign_extend :
    signExtend 1 0x80 = .word 0xFFFFFF80#32 ∧ signExtend 2 0x8000 = .word 0xFFFF8000#32 ∧
      signExtend 3 0x800000 = .word 0xFF800000#32 ∧ signExtend 4 0x80000000 = .word 0x80000000#32 ∧
      [0#3, 5#3, 6#3, 7#3].all (fun dw => decide (signExtend dw 0x80 = .err .invalidWidthState)) = true ∧
      [0#3, 5#3, 6#3, 7#3].all (fun dw => !widthValid dw) = true := by decide

/-- `SignExtendCases`, `LextResultBits`: a state at every `DW`. -/
theorem witness_every_width : ∀ dw : Width, ∃ s : State, s.dw = dw := fun dw => ⟨ready dw [], rfl⟩

/-- `SignMasks`: a width below, the widths with a mask, a width above. -/
theorem witness_masks : signMask 0 = none ∧ (signMask 1).isSome ∧ (signMask 3).isSome ∧ signMask 4 = none := by
  decide

/-- `WidthFormula`: two values that agree in bits `[1:0]`. -/
theorem witness_width_formula : ∃ v w : Byte, w ≠ v ∧ w.extractLsb' 0 2 = v.extractLsb' 0 2 :=
  ⟨0x02, 0xFE, by decide, by decide⟩

/-- `AssembleIsBigEndian`: four bytes, and the last index. -/
theorem witness_assemble : ∃ (rs : List Byte) (i : Nat), rs.length ≤ 4 ∧ i < rs.length ∧ rs.length = 4 ∧ i = 3 :=
  ⟨[1, 2, 3, 4], 3, by decide, by decide, rfl, rfl⟩

/-- `WritePayloadIsLowBytes`: two words that agree below the width only. -/
theorem witness_write_payload :
    ∃ (dw : Width) (u v : Word), widthValid dw = true ∧ u ≠ v ∧
      u.toNat % 2 ^ (8 * dw.toNat) = v.toNat % 2 ^ (8 * dw.toNat) :=
  ⟨1, 0x1FF, 0x2FF, by decide, by decide, by decide⟩

/-- `CommandOperationsComplete`: the first and the last operation of the list, at an invalid width. -/
theorem witness_command_operations :
    (∃ (s : State) (a b c : Byte) (rest : List Reply), s.seq = .idle ∧ widthValid s.dw = false ∧
      s.replies = .ok a :: .ok b :: .ok c :: rest) ∧
    ∀ p ∈ [(Instr.clrMdr0, 0x08#8), (.loadOtr, 0xE8#8)],
      p ∈ [(.clrMdr0, 0x08#8), (.clrMdr1, 0x10#8), (.clrCntr, 0x20#8), (.clrStr, 0x30#8),
        (Instr.loadCntr, 0xE0#8), (.loadOtr, 0xE8#8)] :=
  ⟨⟨ready 0 [.ok 1, .ok 2, .ok 3], 1, 2, 3, [], rfl, rfl, rfl⟩, by decide⟩

/-- `ByteReadsComplete`, `WriteMdr0Completes`, `WriteMdr1SetsWidth`: at an invalid width. -/
theorem witness_byte_operations :
    ∃ (s : State) (a b r c : Byte) (rest : List Reply), s.seq = .idle ∧ widthValid s.dw = false ∧
      s.world = .arbitrary ∧ s.replies = .ok a :: .ok b :: .ok r :: .ok c :: rest ∧
      (Instr.rdStr, 0x70#8) ∈ [(.rdMdr0, 0x48#8), (Instr.rdMdr1, 0x50#8), (.rdStr, 0x70#8)] :=
  ⟨ready 7 [.ok 1, .ok 2, .ok 3, .ok 4], 1, 2, 3, 4, [], rfl, rfl, rfl, rfl, by decide⟩

/-- `WordReadsComplete`, `WriteDtrCompletes`: at the least and the greatest width. -/
theorem witness_word_operations :
    (∃ (s : State) (a b c : Byte) (rxs : List Byte) (rest : List Reply), s.seq = .idle ∧
      widthValid s.dw = true ∧ s.dw = 1 ∧ rxs.length = s.dw.toNat ∧
      s.replies = .ok a :: .ok b :: (rxs.map .ok ++ .ok c :: rest)) ∧
    ∃ (s : State) (a b c : Byte) (rxs : List Byte) (rest : List Reply), s.seq = .idle ∧
      widthValid s.dw = true ∧ s.dw = 4 ∧ rxs.length = s.dw.toNat ∧
      s.replies = .ok a :: .ok b :: (rxs.map .ok ++ .ok c :: rest) ∧
      (Instr.rdOtr, 0x68#8) ∈ [(.rdCntr, 0x60#8), (Instr.rdOtr, 0x68#8)] :=
  ⟨⟨ready 1 [.ok 1, .ok 2, .ok 3, .ok 4], 1, 2, 4, [3], [], rfl, rfl, rfl, rfl, rfl⟩,
    ⟨ready 4 [.ok 1, .ok 2, .ok 3, .ok 4, .ok 5, .ok 6, .ok 7], 1, 2, 7, [3, 4, 5, 6], [], rfl, rfl, rfl, rfl,
      rfl, by decide⟩⟩

/-- `InvalidWidthIsRefused`: in `IDLE`, at the invalid widths next to the valid ones. -/
theorem witness_invalid_width :
    (∃ s : State, widthValid s.dw = false ∧ s.seq = .idle ∧ s.dw = 0) ∧
      ∃ s : State, widthValid s.dw = false ∧ s.seq = .idle ∧ s.dw = 5 :=
  ⟨⟨ready 0 [], rfl, rfl, rfl⟩, ⟨ready 5 [], rfl, rfl, rfl⟩⟩

/-- `SequencerMeetsFrame`: a frame that ends well, and one whose second call fails. -/
theorem witness_frame :
    (∃ (s : State) (o : FrameOutcome), s.seq = .idle ∧ s.world = .arbitrary ∧
      (usesWidth .rdCntr = true → widthValid s.dw = true) ∧
      frame (wireBytes s.dw .rdCntr) s.replies = some o ∧ o.outcome = .ok [2, 0x12, 0x34]) ∧
    ∃ (s : State) (o : FrameOutcome), s.seq = .idle ∧ s.world = .arbitrary ∧
      (usesWidth (.wrMdr1 1) = true → widthValid s.dw = true) ∧
      frame (wireBytes s.dw (.wrMdr1 1)) s.replies = some o ∧ o.outcome = .error .transportFailure :=
  ⟨⟨ready 2 [.ok 1, .ok 2, .ok 0x12, .ok 0x34, .ok 3], _, rfl, rfl, by decide, rfl, rfl⟩,
    ⟨ready 0 [.ok 1, .fail, .fail], _, rfl, rfl, by decide, rfl, rfl⟩⟩

/-- `OperationsEmitOneFrame`, and with the script silent `AcceptanceLatchesTheRequest`: an accepted operation
that reads `DW`, one that does not at an invalid width, and a byte write. -/
theorem witness_accepted :
    (∃ s : State, commandByte .rdOtr = some 0x68#8 ∧ s.seq = .idle ∧
      (usesWidth .rdOtr = true → widthValid s.dw = true) ∧ s.replies = [.silent]) ∧
    (∃ s : State, commandByte .clrCntr = some 0x20#8 ∧ s.seq = .idle ∧ widthValid s.dw = false ∧
      (usesWidth .clrCntr = true → widthValid s.dw = true) ∧ s.replies = [.silent]) ∧
    ∃ s : State, commandByte (.wrMdr1 0x42) = some 0x90#8 ∧ s.seq = .idle ∧ s.replies = [.silent] ∧
      decode (.request 0x90#8 s.wdata) = .ok (.wrMdr1 0x42) :=
  ⟨⟨ready 2 [.silent], rfl, rfl, by decide, rfl⟩, ⟨ready 6 [.silent], rfl, rfl, rfl, by decide, rfl⟩,
    ⟨{ ready 4 [.silent] with wdata := 0xAABBCC42 }, rfl, rfl, rfl, by decide⟩⟩

/-- `AnsweredOperationsEnd`: seven answers, one of them a failure. -/
theorem witness_answered :
    ∃ s : State, commandByte .rdCntr = some 0x60#8 ∧ s.seq = .idle ∧ 7 ≤ s.replies.length ∧
      .silent ∉ s.replies ∧ .fail ∈ s.replies :=
  ⟨ready 4 [.ok 1, .ok 2, .ok 3, .fail, .ok 5, .ok 6, .ok 7], rfl, rfl, by decide, by decide, by decide⟩

/-- `UnansweredCallWaits`. -/
theorem witness_unanswered :
    ∃ s : State, Sound s ∧ s.seq ≠ .idle ∧ s.inbox = [] ∧ s.replies = [.silent, .ok 1] :=
  ⟨{ reading with replies := [.silent, .ok 1] }, ⟨by decide, by decide, by decide, by decide⟩, by decide, rfl,
    rfl⟩

/-- `WaitingDoesNotChangeTheOutcome`: the wait is in mid-frame. -/
theorem witness_waiting :
    ∃ (s t : State) (pre post : List Reply), commandByte .rdCntr = some 0x60#8 ∧ s.seq = .idle ∧
      s.inbox = [] ∧ .silent ∉ pre ∧ exec .rdCntr { s with replies := pre ++ .silent :: post } = .next t ∧
      t.seq ≠ .idle :=
  ⟨ready 2 [], _, [.ok 1, .ok 2, .ok 3], [.ok 4, .ok 5], rfl, rfl, rfl, by decide, rfl, by decide⟩

/-- `OnlyWriteMdr1ChangesWidth`: the change happens in an operation. -/
theorem witness_width_changes : ∃ s t : State, exec (.wrMdr1 1) s = .next t ∧ t.dw ≠ s.dw :=
  ⟨ready 4 [.ok 1, .ok 2, .ok 3, .ok 4], _, rfl, by decide⟩

/-- `DW` before and after a step. -/
def widths (s : State) : Option (Width × Width) :=
  match step s with
  | .next t => some (s.dw, t.dw)
  | _ => none

/-- `OnlyWriteMdr1ChangesWidth`: the change happens in a step that takes a reset, one that takes a `WR_MDR1`, and
one that takes a waiting `WR_MDR1` up again. -/
theorem witness_step_changes_width :
    widths { ready 1 [] with inbox := [.reset] } = some (1, 4) ∧
      widths { ready 4 [.ok 1, .ok 2, .ok 3, .ok 4] with inbox := [.request 0x90 1] } = some (4, 3) ∧
      widths { ready 4 [.ok 1] with seq := .desel, opr := 0x90, wdr := 2 } = some (4, 2) := by decide

/-- `AccumulatorHoldsBytesReceived`: nothing received yet, and all but one byte. -/
theorem witness_accumulator :
    (∃ (s : State) (rxs : List Byte), s.seq = .idle ∧ s.world = .arbitrary ∧ widthValid s.dw = true ∧
      rxs.length < s.dw.toNat ∧ rxs = [] ∧
      s.replies = .ok 1 :: .ok 2 :: (rxs.map .ok ++ [.silent])) ∧
    ∃ (s : State) (rxs : List Byte), s.seq = .idle ∧ s.world = .arbitrary ∧ widthValid s.dw = true ∧
      rxs.length + 1 = s.dw.toNat ∧ rxs.length < s.dw.toNat ∧ rxs = [3, 4, 5] ∧
      s.replies = .ok 1 :: .ok 2 :: (rxs.map .ok ++ [.silent]) :=
  ⟨⟨ready 1 [.ok 1, .ok 2, .silent], [], rfl, rfl, rfl, by decide, rfl, rfl⟩,
    ⟨ready 4 [.ok 1, .ok 2, .ok 3, .ok 4, .ok 5, .silent], [3, 4, 5], rfl, rfl, rfl, rfl, by decide, rfl, rfl⟩⟩

/-- `FirstFailureIsLatched`: the failed selection, the failed command byte, the failed last payload byte, the
abort answered either way, and the failed closing call. -/
theorem witness_first_failure :
    (∃ s : State, commandByte .rdCntr = some 0x60#8 ∧ s.seq = .idle ∧
      (usesWidth .rdCntr = true → widthValid s.dw = true) ∧ s.replies = [.fail, .silent]) ∧
    (∃ s : State, commandByte .clrStr = some 0x30#8 ∧ s.seq = .idle ∧
      (usesWidth .clrStr = true → widthValid s.dw = true) ∧ s.replies = [.ok 1, .fail, .silent]) ∧
    (∃ s : State, s.seq = .data ∧ s.coherent = true ∧ s.idx.toNat + 1 = s.payloadLen ∧
      s.replies = [.fail, .silent]) ∧
    (∃ s : State, s.seq = .abort ∧ s.coherent = true ∧ s.replies = [.fail]) ∧
    (∃ s : State, s.seq = .abort ∧ s.coherent = true ∧ s.replies = [.ok 1]) ∧
    ∃ s : State, s.seq = .desel ∧ s.coherent = true ∧ s.replies = [.fail] :=
  ⟨⟨ready 2 [.fail, .silent], rfl, rfl, by decide, rfl⟩, ⟨ready 0 [.ok 1, .fail, .silent], rfl, rfl, by decide, rfl⟩,
    ⟨{ reading with replies := [.fail, .silent] }, rfl, by decide, by decide, rfl⟩,
    ⟨{ reading with seq := .abort, replies := [.fail] }, rfl, by decide, rfl⟩,
    ⟨{ reading with seq := .abort, replies := [.ok 1] }, rfl, by decide, rfl⟩,
    ⟨{ reading with seq := .desel, replies := [.fail] }, rfl, by decide, rfl⟩⟩

theorem forall_same {a b c d a' b' c' d' : Byte} :
    List.Forall₂ sameAnswer [.ok a, .ok b, .ok c, .ok d] [.ok a', .ok b', .ok c', .ok d'] :=
  .cons trivial (.cons trivial (.cons trivial (.cons trivial .nil)))

/-- `DiscardedBytesDoNotMatter`: a read whose command byte answers differ, and a write whose answers all do. -/
theorem witness_discarded :
    (∃ (s t t' : State) (rs rs' : List Reply), commandByte .rdStr = some 0x70#8 ∧ s.seq = .idle ∧
      s.world = .arbitrary ∧ List.Forall₂ sameAnswer rs rs' ∧ rs ≠ rs' ∧
      (isRead (formatOf 0x70#8) = true → rs.drop 2 = rs'.drop 2) ∧
      exec .rdStr { s with replies := rs } = .next t ∧ exec .rdStr { s with replies := rs' } = .next t') ∧
    ∃ (s t t' : State) (rs rs' : List Reply), commandByte (.wrMdr0 1) = some 0x88#8 ∧ s.seq = .idle ∧
      s.world = .arbitrary ∧ List.Forall₂ sameAnswer rs rs' ∧ rs.drop 2 ≠ rs'.drop 2 ∧
      (isRead (formatOf 0x88#8) = true → rs.drop 2 = rs'.drop 2) ∧
      exec (.wrMdr0 1) { s with replies := rs } = .next t ∧
      exec (.wrMdr0 1) { s with replies := rs' } = .next t' :=
  ⟨⟨ready 4 [], (ready 4 [.ok 1, .ok 2, .ok 3, .ok 4]).request 0x70 0,
      (ready 4 [.ok 5, .ok 6, .ok 3, .ok 4]).request 0x70 0, [.ok 1, .ok 2, .ok 3, .ok 4],
      [.ok 5, .ok 6, .ok 3, .ok 4], rfl, rfl, rfl, forall_same, by decide, fun _ => rfl, rfl, rfl⟩,
    ⟨ready 4 [], (ready 4 [.ok 1, .ok 2, .ok 3, .ok 4]).request 0x88 1,
      (ready 4 [.ok 5, .ok 6, .ok 7, .ok 8]).request 0x88 1, [.ok 1, .ok 2, .ok 3, .ok 4],
      [.ok 5, .ok 6, .ok 7, .ok 8], rfl, rfl, rfl, forall_same, by decide, by decide, rfl, rfl⟩⟩

/-- `ResponseCodes`: every kind of result on either port. -/
theorem witness_results :
    ∀ r r' : Option Result, ∃ s : State, s.result = r ∧ s.lextOut = r' :=
  fun r r' => ⟨{ State.reset with result := r, lextOut := r' }, rfl, rfl⟩

/-- `ClearsResetTheirRegister`, `LoadsCopyRegisters`. -/
theorem witness_peripheral_commands :
    ∃ (s : State) (a b c : Byte) (rest : List Reply), s.seq = .idle ∧ s.world = .reference ∧
      s.csLine = .high ∧ s.replies = .ok a :: .ok b :: .ok c :: rest :=
  ⟨attached 3 sample [.ok 1, .ok 2, .ok 3], 1, 2, 3, [], rfl, rfl, rfl, rfl⟩

/-- `ModeWritesReplaceTheirRegister`, and `ReadsReturnTheRegister` for one byte. -/
theorem witness_peripheral_bytes :
    ∃ (s : State) (a b c : Byte) (rxs : List Byte) (rest : List Reply), s.seq = .idle ∧
      s.world = .reference ∧ s.csLine = .high ∧ rxs.length = 1 ∧
      s.replies = .ok a :: .ok b :: (rxs.map .ok ++ .ok c :: rest) :=
  ⟨attached 3 sample [.ok 1, .ok 2, .ok 3, .ok 4], 1, 2, 4, [3], [], rfl, rfl, rfl, rfl, rfl⟩

/-- `WriteDtrStoresLowBytes`, and `ReadsReturnTheRegister` for a word: at the peripheral's width, and below. -/
theorem witness_peripheral_words :
    (∃ (s : State) (a b c : Byte) (rxs : List Byte) (rest : List Reply), s.seq = .idle ∧
      s.world = .reference ∧ s.csLine = .high ∧ s.dw.toNat = s.dev.width ∧ rxs.length = s.dw.toNat ∧
      s.replies = .ok a :: .ok b :: (rxs.map .ok ++ .ok c :: rest)) ∧
    ∃ (s : State) (a b c : Byte) (rxs : List Byte) (rest : List Reply), s.seq = .idle ∧
      s.world = .reference ∧ s.csLine = .high ∧ 1 ≤ s.dw.toNat ∧ s.dw.toNat ≤ s.dev.width ∧ s.dw = 1 ∧
      rxs.length = s.dw.toNat ∧ s.replies = .ok a :: .ok b :: (rxs.map .ok ++ .ok c :: rest) :=
  ⟨⟨attached 3 sample [.ok 1, .ok 2, .ok 3, .ok 4, .ok 5, .ok 6], 1, 2, 6, [3, 4, 5], [], rfl, rfl, rfl,
      by decide, rfl, rfl⟩,
    ⟨attached 1 sample [.ok 1, .ok 2, .ok 3, .ok 4], 1, 2, 4, [3], [], rfl, rfl, rfl, by decide, by decide, rfl,
      rfl, rfl⟩⟩

/-- `WriteLoadReadRoundTrip`: three operations at width 3, with answers for all of them. -/
theorem witness_round_trip :
    ∃ (s : State) (v : Word) (rest : List HostInput) (oks : List Byte) (more : List Reply), s.seq = .idle ∧
      s.world = .reference ∧ s.csLine = .high ∧ s.dw.toNat = s.dev.width ∧
      s.inbox = encode (.wrDtr v) :: encode .loadCntr :: encode .rdCntr :: rest ∧
      s.replies = oks.map .ok ++ more ∧ oks.length = 9 + 2 * s.dw.toNat :=
  ⟨{ attached 3 sample (List.replicate 15 (.ok 0)) with
      inbox := [encode (.wrDtr 0xAABBCCDD), encode .loadCntr, encode .rdCntr] },
    0xAABBCCDD, [], List.replicate 15 0, [], rfl, rfl, rfl, by decide, rfl, rfl, rfl⟩

end Sys2Proof.Tests
end

section
/-!
PROOFS. What is missing among the laws for the family of the state: a step by what it takes from the host's
queue, the operand an operation latches, and runs of the sequencer up to a call that is not answered.
-/

namespace Sys2Proof.Machine

/-! ### The decoder -/

/-- A listed select code decodes to an operation with that command byte, the operand cut from the write data
(30_encoding R81, R82). -/
theorem decodeRequest_listed {op : Byte} (h : op ∈ selectCodes) (w : Word) :
    ∃ i, decodeRequest op w = .ok i ∧ commandByte i = some op ∧
      (∀ v, i = .wrMdr0 v ∨ i = .wrMdr1 v → v = w.setWidth 8) ∧ ∀ v, i = .wrDtr v → v = w := by
  simp only [selectCodes, List.mem_cons, List.not_mem_nil, or_false] at h
  rcases h with h | h | h | h | h | h | h | h | h | h | h | h | h | h <;> subst h <;>
    exact ⟨_, rfl, rfl, by simp, by simp⟩

/-- A select code that is not listed names no operation (30_encoding R93). -/
theorem decodeRequest_unlisted {op : Byte} (h : op ∉ selectCodes) (w : Word) :
    decodeRequest op w = .error (.illegalOp op) := by
  simp only [selectCodes, List.mem_cons, List.not_mem_nil, or_false, not_or] at h
  simp only [decodeRequest, h, if_false]

/-- What a request that decodes says of its operation. -/
theorem decodeRequest_ok {op : Byte} {w : Word} {i : Instr} (h : decodeRequest op w = .ok i) :
    commandByte i = some op ∧ (∀ v, i = .wrMdr0 v ∨ i = .wrMdr1 v → v = w.setWidth 8) ∧
      ∀ v, i = .wrDtr v → v = w := by
  by_cases hop : op ∈ selectCodes
  · obtain ⟨j, hj, hspec⟩ := decodeRequest_listed hop w
    cases hj.symm.trans h
    exact hspec
  · cases (decodeRequest_unlisted hop w).symm.trans h

/-! ### A step, by what the host presents -/

theorem step_of_lext {s : State} {v : Word} {rest : List HostInput} (h : s.inbox = .lext v :: rest) :
    step s = execLext v (s.present (.lext v) rest) := by simp [step, h, HostInput.waits, decode, exec]

theorem step_of_operation {s : State} {op : Byte} {w : Word} {rest : List HostInput} {i : Instr}
    (h : s.inbox = .request op w :: rest) (hs : s.seq = .idle) (hd : decodeRequest op w = .ok i) :
    step s = exec i (s.present (.request op w) rest) := by
  simp [step, h, HostInput.waits, hs, decode, hd]

theorem step_of_illegal {s : State} {op : Byte} {w : Word} {rest : List HostInput}
    (h : s.inbox = .request op w :: rest) (hs : s.seq = .idle)
    (hd : decodeRequest op w = .error (.illegalOp op)) :
    step s = .next (s.present (.request op w) rest).refuse := by
  simp [step, h, HostInput.waits, hs, decode, hd]

/-- What a step does, by what stands at the head of the host's queue (30_encoding R92, R93, R96; 70_reset_and_hazards
R201; log 6). -/
inductive StepCase (s : State) : Prop where
  /-- Nothing is presented, or a request must wait. -/
  | resumes (step : step s = s.resume)
  /-- The host does nothing. -/
  | quiet (rest : List HostInput) (step : step s = (s.present .quiet rest).resume)
  /-- The reset input. -/
  | reset (rest : List HostInput) (inbox : s.inbox = .reset :: rest)
      (step : step s = .next (s.present .reset rest).resetInput)
  /-- A word on the `LEXT` port. -/
  | lext (v : Word) (rest : List HostInput) (step : step s = execLext v (s.present (.lext v) rest))
  /-- A request for a bus operation, taken in `IDLE`. -/
  | operation (op : Byte) (w : Word) (rest : List HostInput) (i : Instr)
      (inbox : s.inbox = .request op w :: rest) (idle : s.seq = .idle)
      (decoded : decodeRequest op w = .ok i) (step : step s = exec i (s.present (.request op w) rest))
  /-- A select code that names no operation, in `IDLE`. -/
  | refused (op : Byte) (w : Word) (rest : List HostInput) (idle : s.seq = .idle)
      (step : step s = .next (s.present (.request op w) rest).refuse)

theorem step_cases (s : State) : StepCase s := by
  cases hin : s.inbox with
  | nil => exact .resumes (step_of_empty hin)
  | cons i rest =>
    cases i with
    | quiet => exact .quiet rest (step_of_quiet hin)
    | reset => exact .reset rest hin (step_of_reset hin)
    | lext v => exact .lext v rest (step_of_lext hin)
    | request op w =>
      by_cases hs : s.seq = .idle
      · by_cases hop : op ∈ selectCodes
        · obtain ⟨i, hd, -⟩ := decodeRequest_listed hop w
          exact .operation op w rest i hin hs hd (step_of_operation hin hs hd)
        · exact .refused op w rest hs (step_of_illegal hin hs (decodeRequest_unlisted hop w))
      · exact .resumes (step_of_waiting hin (by simp [HostInput.waits, hs]))

@[simp] theorem State.resetInput_dw (s : State) : s.resetInput.dw = Config.resetWidth := by
  unfold State.resetInput; split <;> rfl

@[simp] theorem State.resetInput_seq (s : State) : s.resetInput.seq = .idle := by
  unfold State.resetInput; split <;> rfl

/-- A step that carries on the operation in flight runs the sequencer from where it stands. -/
theorem State.resume_next {s t : State} (h : s.resume = .next t) :
    t = runSequencer Config.callLimit s := by
  unfold State.resume at h
  split at h
  · cases h; rfl
  · cases h

/-! ### The operand an operation latches -/

/-- What acceptance puts in `WDR` when `wdata` is on the data lines (10_state R27, log 17). -/
def latchedOperand (wdata : Word) : Instr → Word
  | .wrMdr0 value | .wrMdr1 value => withByteOperand wdata value
  | .wrDtr v => v
  | _ => wdata

/-- The meaning of a bus operation is one request, with its command byte and the operand it latches. -/
theorem exec_request {i : Instr} {code : Byte} (h : commandByte i = some code) (s : State) :
    exec i s = .next (s.request code (latchedOperand s.wdata i)) := by
  cases i <;> cases h <;> rfl

/-- Only `LEXT` has no command byte (30_encoding R92). -/
theorem commandByte_eq_none {i : Instr} (h : commandByte i = none) : ∃ v, i = .lext v := by
  cases i with
  | lext v => exact ⟨v, rfl⟩
  | _ => cases h

/-- The command byte `0x90` is that of `WR_MDR1` alone (30_encoding R82). -/
theorem eq_wrMdr1_of_commandByte {i : Instr} (h : commandByte i = some 0x90#8) : ∃ v, i = .wrMdr1 v := by
  cases i with
  | wrMdr1 v => exact ⟨v, rfl⟩
  | _ => simp [commandByte, encode] at h

/-- An operation reads `DW` exactly when the format of its command byte does (10_state R30). -/
theorem readsWidth_commandByte {i : Instr} {code : Byte} (h : commandByte i = some code) :
    readsWidth (formatOf code) = usesWidth i := by
  cases i <;> cases h <;> rfl

/-- The bits above a byte operand are those of the data lines (20_memory R57, log 17). -/
theorem withByteOperand_shift (wdata : Word) (value : Byte) :
    withByteOperand wdata value >>> 8 = wdata >>> 8 := by
  ext j hj
  have hmask : ∀ j : Fin 32, 8 ≤ j.val → (0xFFFFFF00#32).getLsbD j = true := by decide
  by_cases hlt : 8 + j < 32
  · have := hmask ⟨8 + j, hlt⟩ (by simp)
    simp [withByteOperand, BitVec.getLsbD_setWidth, this]
  · simp [BitVec.getLsbD_of_ge _ _ (Nat.le_of_not_lt hlt)]

/-- A byte operand cut from the data lines leaves them as they are. -/
theorem withByteOperand_self (wdata : Word) : withByteOperand wdata (wdata.setWidth 8) = wdata := by
  ext j hj
  have hmask : ∀ j : Fin 32, (0xFFFFFF00#32).getLsbD j = decide (8 ≤ j.val) := by decide
  have := hmask ⟨j, hj⟩
  by_cases hlt : j < 8 <;> simp_all [withByteOperand]

/-- A request decoded from the data lines latches exactly what stands on them (10_state R27). -/
theorem latchedOperand_of_decodeRequest {op : Byte} {w : Word} {i : Instr}
    (h : decodeRequest op w = .ok i) : latchedOperand w i = w := by
  obtain ⟨-, hbyte, hword⟩ := decodeRequest_ok h
  cases i with
  | wrMdr0 v => cases hbyte v (.inl rfl); exact withByteOperand_self w
  | wrMdr1 v => cases hbyte v (.inr rfl); exact withByteOperand_self w
  | wrDtr v => exact hword v rfl
  | _ => rfl

/-! ### Runs of the sequencer -/

/-- A run that meets an unanswered call stops there with everything but the script as it was
(60_exceptions R189). -/
theorem runSequencer_silent {n : Nat} {s : State} {rest : List Reply} (hs : s.seq ≠ .idle)
    (h : s.replies = .silent :: rest) : runSequencer (n + 1) s = { s with replies := rest } :=
  runSequencer_waiting hs (tick_silent hs h)

/-- A run whose next call ends the operation is over with that call. -/
theorem runSequencer_ended {n : Nat} {s t : State} (hs : s.seq ≠ .idle) (h : tick s = .moved t)
    (ht : t.seq = .idle) : runSequencer (n + 1) s = t := by
  rw [runSequencer_moved hs h, runSequencer_idle n ht]

/-- A bus operation presented in `IDLE`, with a width it can use, is accepted and runs (30_encoding R96). -/
theorem exec_accepted {i : Instr} {code : Byte} {s : State} (hi : commandByte i = some code)
    (hs : s.seq = .idle) (hw : usesWidth i = true → widthValid s.dw = true) :
    exec i s = .next (runSequencer Config.callLimit (s.accept code (latchedOperand s.wdata i))) := by
  rw [exec_request hi, State.request_accepted hs (readsWidth_commandByte hi ▸ hw)]

end Sys2Proof.Machine
end

section
/-!
PROOFS. The engine's invariant `Sound` (10_state R22, 30_encoding R90): every row of the sequencer's table keeps
it, and so every step.
-/

namespace Sys2Proof.Machine

/-- The width a Mode Register 1 value selects is legal, whatever the value (42_write R138). -/
theorem widthOfMdr1_valid (value : Byte) : widthValid (widthOfMdr1 value) = true := by
  have hle : (value &&& 0x03#8).toNat ≤ 3 := by
    rw [BitVec.toNat_and]; exact Nat.and_le_right
  have hnat : (widthOfMdr1 value).toNat = 4 - (value &&& 0x03#8).toNat := by
    rw [widthOfMdr1, BitVec.toNat_ofNat]; omega
  simp only [widthValid, hnat, Bool.and_eq_true, decide_eq_true_eq]
  omega

/-- With no operation running, soundness is a legal width. -/
theorem Sound.of_idle {s : State} (hs : s.seq = .idle) (hw : widthValid s.dw = true) : Sound s where
  width := hw
  position := s.coherent_iff.2 (by simp [hs])
  noResult := by simp [hs]
  selected := by simp [hs]

/-- Within an operation, soundness after a row is a matter of `IDX` in `DATA` and of the line. -/
theorem Sound.of_sameOperation {s t : State} (h : Sound s) (hs : s.seq ≠ .idle) (same : SameOperation s t)
    (hidx : t.seq = .data → t.idx.toNat < t.payloadLen)
    (hline : t.seq = .cmd ∨ t.seq = .data ∨ t.seq = .desel → t.csLine = .low) : Sound t where
  width := same.dw ▸ h.width
  position := by
    obtain ⟨hop, -⟩ := s.coherent_iff.1 h.position
    refine t.coherent_iff.2 ⟨fun _ => ?_, hidx⟩
    rw [same.opr, same.dw]
    exact hop hs
  noResult := fun _ => same.result.trans (h.noResult hs)
  selected := hline

/-- Soundness reads six fields only. -/
theorem Sound.congr {s t : State} (h : Sound s) (hdw : t.dw = s.dw) (hseq : t.seq = s.seq)
    (hidx : t.idx = s.idx) (hopr : t.opr = s.opr) (hresult : t.result = s.result)
    (hline : t.csLine = s.csLine) : Sound t where
  width := hdw ▸ h.width
  position := by
    have hpos := s.coherent_iff.1 h.position
    exact t.coherent_iff.2 (by simpa only [State.payloadLen, hdw, hseq, hidx, hopr] using hpos)
  noResult := by rw [hseq, hresult]; exact h.noResult
  selected := by rw [hseq, hline]; exact h.selected

/-- Every row of the sequencer's table keeps soundness. -/
theorem Row.sound {s t : State} (row : Row s t) (hs : s.seq ≠ .idle) (h : Sound s) : Sound t := by
  cases row with
  | selected _ same seq _ line _ =>
    exact h.of_sameOperation hs same (by simp [seq]) fun _ => line
  | notSelected _ same seq _ _ | commandFailed _ same seq _ _ | dataFailed _ same seq _ _ =>
    exact h.of_sameOperation hs same (by simp [seq]) (by simp [seq])
  | commandOnly phase same _ seq _ line _ =>
    exact h.of_sameOperation hs same (by simp [seq])
      fun _ => line.trans (h.selected (.inl phase))
  | command phase same len seq idx _ _ line _ =>
    refine h.of_sameOperation hs same (fun _ => ?_)
      fun _ => line.trans (h.selected (.inl phase))
    rw [idx, same.payloadLen]
    exact Nat.pos_of_ne_zero len
  | more tx rx phase same _ len seq idx _ _ line _ =>
    refine h.of_sameOperation hs same (fun _ => ?_)
      fun _ => line.trans (h.selected (.inr (.inl phase)))
    rw [idx, same.payloadLen, BitVec.toNat_add]
    exact (Nat.mod_le _ _).trans_lt len
  | last tx rx phase same _ _ seq _ _ line _ =>
    exact h.of_sameOperation hs same (by simp [seq])
      fun _ => line.trans (h.selected (.inr (.inl phase)))
  | completed _ _ seq dw _ _ _ =>
    refine .of_idle seq ?_
    rw [dw]
    split
    · exact widthOfMdr1_valid _
    · exact h.width
  | notDeselected _ _ seq dw _ _ | aborted _ _ seq dw _ _ => exact .of_idle seq (dw ▸ h.width)

/-- A run of the sequencer keeps soundness. -/
theorem runSequencer_sound (n : Nat) {s : State} (h : Sound s) : Sound (runSequencer n s) := by
  refine runSequencer_keeps (P := Sound) (fun s t h hs ht => (tick_row ht).sound hs h) ?_ n s h
  intro s t hs _ ht
  obtain ⟨same, -, line, -⟩ := tick_waiting ht
  exact hs.congr same.dw same.seq same.idx same.opr same.result line

/-- Taking an action from the host's queue touches no register of the engine. -/
theorem Sound.present {s : State} (h : Sound s) (i : HostInput) (rest : List HostInput) :
    Sound (s.present i rest) :=
  h.congr (by simp) (by simp) (by simp) (by simp) (by simp) (by simp)

/-- From a sound state a running operation goes on, to a sound state: the sequencer is never incoherent. -/
theorem Sound.resume {s : State} (h : Sound s) : ∃ t, s.resume = .next t ∧ Sound t :=
  ⟨_, State.resume_of_coherent h.position, runSequencer_sound _ h⟩

/-- Acceptance begins an operation at a position of the sequencer. -/
theorem Sound.accept {s : State} (h : Sound s) {code : Byte} (hcode : (rowOf code).isSome = true) (w : Word) :
    Sound (s.accept code w) where
  width := h.width
  position := (s.accept code w).coherent_iff.2 ⟨fun _ => ⟨hcode, fun _ => h.width⟩, by simp⟩
  noResult := fun _ => rfl
  selected := by simp

/-- A request for a listed operation keeps soundness, whether it waits, is answered at once, or runs. -/
theorem Sound.request {s : State} (h : Sound s) {code : Byte} (hcode : (rowOf code).isSome = true) (w : Word) :
    Sound (s.request code w) := by
  rcases s.request_cases code w with ⟨-, heq⟩ | ⟨hs, -, -, heq⟩ | ⟨-, -, heq⟩ <;> rw [heq]
  · exact h
  · exact .of_idle hs h.width
  · exact runSequencer_sound _ (h.accept hcode w)

/-- Settles O4: what the host presents decides the case, and each case is a run of the sequencer, a request, or
an update that leaves the six fields of `Sound` alone. -/
theorem stepKeepsSoundness : Obligations.StepKeepsSoundness := by
  intro s h
  cases step_cases s with
  | resumes step => rw [step]; exact h.resume
  | quiet rest step => rw [step]; exact (h.present .quiet rest).resume
  | reset rest _ step =>
    exact ⟨_, step, .of_idle (by simp) (by rw [State.resetInput_dw]; decide)⟩
  | lext v rest step =>
    exact ⟨_, step, (h.present (.lext v) rest).congr rfl rfl rfl rfl rfl rfl⟩
  | operation op w rest i _ _ decoded step =>
    obtain ⟨hi, -⟩ := decodeRequest_ok decoded
    exact ⟨_, step.trans (exec_request hi _), (h.present _ rest).request (commandByte_listed hi) _⟩
  | refused op w rest idle step =>
    exact ⟨_, step, .of_idle (by simpa using idle) (by simpa using h.width)⟩

/-- Settles O1. -/
theorem resetLeavesSpecValues : Obligations.ResetLeavesSpecValues :=
  ⟨rfl, rfl, rfl, rfl, rfl⟩

/-- Settles O3: nothing runs after reset, so both invariants come down to the legal width. -/
theorem resetIsSound : Obligations.ResetIsSound :=
  ⟨.of_idle rfl (by decide), fun _ _ => .inr trivial⟩

end Sys2Proof.Machine
end

section
/-!
PROOFS. `DW` through an operation and through a step (10_state R21, R22, R30).
-/

namespace Sys2Proof.Machine

/-- What has become of the width at `t`, in the run of the operation that stood at `s`. -/
inductive WidthSince (s t : State) : Prop where
  /-- `DW` is as before, and what could still change it has been kept. -/
  | kept (dw : t.dw = s.dw) (latched : t.seq ≠ .idle → t.opr = s.opr ∧ t.wdr = s.wdr)
  /-- A `WR_MDR1` has ended `Ok(())`. -/
  | committed (opr : s.opr = 0x90#8) (seq : t.seq = .idle) (result : t.result = some .done)
      (dw : t.dw = widthOfMdr1 (byteOperand s.wdr))

/-- Only the row that ends an operation with success can write `DW`, and only for `WR_MDR1` (42_write R138). -/
theorem Row.widthSince {s t u : State} (row : Row t u) (hs : t.seq ≠ .idle) (h : WidthSince s t) :
    WidthSince s u := by
  cases h with
  | committed _ seq _ _ => exact absurd seq hs
  | kept dw latched =>
    obtain ⟨hopr, hwdr⟩ := latched hs
    have sameOperation (same : SameOperation t u) : WidthSince s u :=
      .kept (same.dw.trans dw) fun _ => ⟨same.opr.trans hopr, same.wdr.trans hwdr⟩
    cases row with
    | completed _ _ seq dwCommit result _ _ =>
      rw [hopr, hwdr] at dwCommit
      by_cases h90 : s.opr = 0x90#8
      · rw [if_pos h90] at dwCommit
        refine .committed h90 seq ?_ dwCommit
        rw [result, hopr, h90]
        rfl
      · rw [if_neg h90] at dwCommit
        exact .kept (dwCommit.trans dw) (by simp [seq])
    | notDeselected _ _ seq dwKept _ _ | aborted _ _ seq dwKept _ _ =>
      exact .kept (dwKept.trans dw) (by simp [seq])
    | selected _ same | notSelected _ same | commandOnly _ same | command _ same | commandFailed _ same
    | dataFailed _ same | more _ _ _ same | last _ _ _ same => exact sameOperation same

/-- A run of the sequencer writes `DW` at most as the end of a `WR_MDR1`. -/
theorem runSequencer_widthSince (n : Nat) (s : State) : WidthSince s (runSequencer n s) := by
  refine runSequencer_keeps (P := WidthSince s) (fun t u h hs hu => (tick_row hu).widthSince hs h) ?_ n s
    (.kept rfl fun _ => ⟨rfl, rfl⟩)
  intro t u h hs hu
  obtain ⟨same, -⟩ := tick_waiting hu
  cases h with
  | kept dw latched =>
    obtain ⟨hopr, hwdr⟩ := latched hs
    exact .kept (same.dw.trans dw) fun _ => ⟨same.opr.trans hopr, same.wdr.trans hwdr⟩
  | committed _ seq _ _ => exact absurd seq hs

/-- A request leaves `DW` as it was, or was for `WR_MDR1`, was accepted, and has ended `Ok(())`. -/
theorem State.request_dw (code : Byte) (w : Word) (s : State) :
    (s.request code w).dw = s.dw ∨
      code = 0x90#8 ∧ (s.request code w).seq = .idle ∧ (s.request code w).result = some .done ∧
        (s.request code w).dw = widthOfMdr1 (byteOperand w) := by
  rcases s.request_cases code w with ⟨-, heq⟩ | ⟨-, -, -, heq⟩ | ⟨-, -, heq⟩ <;> rw [heq]
  · exact .inl rfl
  · exact .inl (by simp)
  · cases runSequencer_widthSince Config.callLimit (s.accept code w) with
    | kept dw _ => exact .inl dw
    | committed opr seq result dw => exact .inr ⟨opr, seq, result, dw⟩

/-- Of every operation: `DW` is as before, or the operation was `WR_MDR1` and has ended `Ok(())`. -/
theorem exec_dw {i : Instr} {s t : State} (h : exec i s = .next t) :
    t.dw = s.dw ∨
      ∃ value, i = .wrMdr1 value ∧ t.seq = .idle ∧ t.result = some .done ∧ t.dw = widthOfMdr1 value := by
  cases hi : commandByte i with
  | none =>
    obtain ⟨v, rfl⟩ := commandByte_eq_none hi
    cases h
    exact .inl rfl
  | some code =>
    cases (exec_request hi s).symm.trans h
    rcases s.request_dw code (latchedOperand s.wdata i) with hdw | ⟨rfl, hseq, hresult, hdw⟩
    · exact .inl hdw
    · obtain ⟨value, rfl⟩ := eq_wrMdr1_of_commandByte hi
      refine .inr ⟨value, rfl, hseq, hresult, ?_⟩
      simpa only [latchedOperand, byteOperand_withByteOperand] using hdw

/-- Carrying on leaves `DW` as it was, or was the end of a `WR_MDR1` in flight. -/
theorem State.resume_dw {s t : State} (h : s.resume = .next t) :
    t.dw = s.dw ∨
      s.seq ≠ .idle ∧ s.opr = 0x90#8 ∧ t.seq = .idle ∧ t.result = some .done ∧
        t.dw = widthOfMdr1 (byteOperand s.wdr) := by
  cases State.resume_next h
  by_cases hs : s.seq = .idle
  · exact .inl (by rw [runSequencer_idle _ hs])
  · cases runSequencer_widthSince Config.callLimit s with
    | kept dw _ => exact .inl dw
    | committed opr seq result dw => exact .inr ⟨hs, opr, seq, result, dw⟩

/-- Settles O37. -/
theorem onlyWriteMdr1ChangesWidth : Obligations.OnlyWriteMdr1ChangesWidth := by
  refine ⟨fun i s t => exec_dw, fun s t h => ?_⟩
  cases step_cases s with
  | resumes step =>
    rcases State.resume_dw (step ▸ h) with hdw | ⟨hs, hopr, hseq, hresult, hdw⟩
    · exact .inl hdw
    · exact .inr (.inr ⟨hseq, hresult, _, hdw, .inr ⟨hs, hopr, rfl⟩⟩)
  | quiet rest step =>
    rcases State.resume_dw (step ▸ h) with hdw | ⟨hs, hopr, hseq, hresult, hdw⟩
    · exact .inl (hdw.trans (by simp))
    · exact .inr (.inr ⟨hseq, hresult, _, hdw, .inr ⟨by simpa using hs, by simpa using hopr, by simp⟩⟩)
  | reset rest inbox step =>
    cases step.symm.trans h
    exact .inr (.inl ⟨rest, inbox, State.resetInput_dw _⟩)
  | lext v rest step =>
    cases step.symm.trans h
    exact .inl rfl
  | operation op w rest i inbox idle decoded step =>
    rcases exec_dw (step.symm.trans h) with hdw | ⟨value, rfl, hseq, hresult, hdw⟩
    · exact .inl (hdw.trans (by simp))
    · obtain ⟨hop, hvalue, -⟩ := decodeRequest_ok decoded
      cases hop
      exact .inr (.inr ⟨hseq, hresult, value, hdw,
        .inl ⟨idle, w, rest, inbox, hvalue value (.inr rfl)⟩⟩)
  | refused op w rest _ step =>
    cases step.symm.trans h
    exact .inl (by simp)

end Sys2Proof.Machine
end

section
/-!
PROOFS. An operation cut short by an unanswered call: what its registers hold in `SEL`, in `DATA` and in `ABORT`
(10_state R24, R25, R27, R28; 30_encoding R90; 60_exceptions R175).
-/

namespace Sys2Proof.Machine

/-- Settles O38: the run stops at once, in the state that acceptance left. -/
theorem acceptanceLatchesTheRequest : Obligations.AcceptanceLatchesTheRequest := by
  intro i code s rest hi hs hw hreplies
  have hrun := runSequencer_silent (n := 6) (s := s.accept code (latchedOperand s.wdata i)) (rest := rest)
    (by simp) hreplies
  refine ⟨_, (exec_accepted hi hs hw).trans (congrArg Host.Outcome.next hrun), rfl, rfl, rfl, rfl, rfl, rfl,
    rfl, ?_, ?_, ?_⟩
  · rintro value (rfl | rfl) <;>
      exact ⟨byteOperand_withByteOperand s.wdata value, withByteOperand_shift s.wdata value⟩
  · rintro v rfl
    rfl
  · exact latchedOperand_of_decodeRequest

/-- Payload bytes that leave a read unfinished: `IDX` counts them, `ACC` takes each in turn, and nothing else of
the operation moves until the call that is not answered. -/
theorem runSequencer_partial_read (rest : List Reply) (rxs : List Byte) :
    ∀ (n : Nat) (s : State), s.seq = .data → s.world = .arbitrary → isRead (formatOf s.opr) = true →
      s.payloadLen ≤ 4 → s.idx.toNat + rxs.length < s.payloadLen → rxs.length < n →
      s.replies = rxs.map .ok ++ .silent :: rest →
      ∃ t, runSequencer n s = t ∧ SameOperation s t ∧ t.seq = .data ∧
        t.idx.toNat = s.idx.toNat + rxs.length ∧ t.acc = rxs.foldl accStep s.acc ∧
        t.csLine = s.csLine ∧ t.trace = s.trace ++ rxs.map (.xfer Config.dummyByte) := by
  induction rxs with
  | nil =>
    intro n s hs _ _ _ _ hn hreplies
    obtain ⟨n, rfl⟩ := Nat.exists_eq_succ_of_ne_zero (Nat.ne_of_gt hn)
    rw [runSequencer_silent (by simp [hs]) hreplies]
    exact ⟨_, rfl, ⟨rfl, rfl, rfl, rfl, rfl, rfl, rfl, rfl⟩, hs, rfl, rfl, rfl, by simp⟩
  | cons rx rxs ih =>
    intro n s hs hworld hread hfour hlen hn hreplies
    rw [List.length_cons] at hlen hn
    obtain ⟨n, rfl⟩ := Nat.exists_eq_succ_of_ne_zero (Nat.ne_of_gt (Nat.zero_lt_of_lt hn))
    obtain ⟨u, hu, same, hphase, hacc, hur, htrace, hline, -⟩ :=
      tick_data_ok (b := Config.dummyByte) hs hreplies (by simp [payloadByte, hread])
    rw [State.received_arbitrary hworld] at hacc htrace
    rw [if_pos hread] at hacc
    obtain ⟨hus, hidx⟩ : u.seq = .data ∧ u.idx = s.idx + 1 := by
      rcases hphase with ⟨-, hseq, hidx⟩ | ⟨hlast, -⟩
      · exact ⟨hseq, hidx⟩
      · omega
    have hidx : u.idx.toNat = s.idx.toNat + 1 := by
      rw [hidx, BitVec.toNat_add]
      exact Nat.mod_eq_of_lt (by simp; omega)
    obtain ⟨t, ht, same', hts, htidx, htacc, htline, httrace⟩ :=
      ih n u hus (same.world.trans hworld) (by rw [same.opr]; exact hread) (by rw [same.payloadLen]; exact hfour)
        (by rw [same.payloadLen]; omega) (by omega) hur
    refine ⟨t, (runSequencer_moved (by simp [hs]) hu).trans ht, same.trans same', hts, ?_, ?_,
      htline.trans hline, ?_⟩
    · rw [htidx, hidx, List.length_cons]; omega
    · rw [htacc, hacc, List.foldl_cons]
    · rw [httrace, htrace]; simp

/-- A multi-byte read whose command byte has been answered, and fewer than `DW` payload bytes. -/
theorem readWord_partial {i : Instr} {code a b : Byte} {s : State} {rxs : List Byte} {rest : List Reply}
    (hi : commandByte i = some code) (hformat : formatOf code = .readWord) (hs : s.seq = .idle)
    (hworld : s.world = .arbitrary) (hw : widthValid s.dw = true) (hlen : rxs.length < s.dw.toNat)
    (hreplies : s.replies = .ok a :: .ok b :: (rxs.map .ok ++ .silent :: rest)) :
    ∃ t, exec i s = .next t ∧ t.seq = .data ∧ t.idx.toNat = rxs.length ∧ t.acc = assemble rxs ∧
      t.result = none ∧ t.csLine = .low ∧ t.dw = s.dw ∧
      t.trace = s.trace ++ (.csLow :: .xfer code b :: rxs.map (.xfer Config.dummyByte)) := by
  obtain ⟨u, hu, sameU, hus, hur, hutrace, huline, -⟩ :=
    tick_sel_ok (State.accept_seq code (latchedOperand s.wdata i) s) hreplies
  obtain ⟨v, hv, sameV, hphase, hvr, hvtrace, hvline, -⟩ := tick_cmd_ok hus hur
  have same := sameU.trans sameV
  have hopr : u.opr = code := sameU.opr
  have hpay : u.payloadLen = s.dw.toNat := by
    rw [State.payloadLen, sameU.opr, sameU.dw, State.accept_opr, hformat]; rfl
  have hread : isRead (formatOf code) = true := by rw [hformat]; rfl
  have hfour : s.dw.toNat ≤ 4 := by
    simp only [widthValid, Bool.and_eq_true, decide_eq_true_eq] at hw; exact hw.2
  obtain ⟨hvs, hvidx, hvacc⟩ : v.seq = .data ∧ v.idx = 0 ∧ v.acc = 0 := by
    rcases hphase with ⟨hzero, -⟩ | ⟨-, hseq, hidx, hacc⟩
    · omega
    · exact ⟨hseq, hidx, hacc (by rw [hopr]; exact hread)⟩
  rw [hopr, State.received_arbitrary (sameU.world.trans hworld)] at hvtrace
  obtain ⟨t, ht, sameT, hts, htidx, htacc, htline, httrace⟩ :=
    runSequencer_partial_read rest rxs 5 v hvs (same.world.trans hworld) (by rw [same.opr]; exact hread)
      (by rw [sameV.payloadLen, hpay]; exact hfour) (by rw [sameV.payloadLen, hpay, hvidx]; simpa using hlen)
      (by omega) hvr
  have hrun : runSequencer Config.callLimit (s.accept code (latchedOperand s.wdata i)) = t := by
    rw [Config.callLimit, runSequencer_moved (by simp) hu, runSequencer_moved (by simp [hus]) hv, ht]
  refine ⟨t, by rw [exec_accepted hi hs (fun _ => hw), hrun], hts, ?_, ?_, ?_, ?_, ?_, ?_⟩
  · rw [htidx, hvidx]; simp
  · rw [htacc, hvacc]; rfl
  · exact (same.trans sameT).result
  · rw [htline, hvline, huline]
  · exact (same.trans sameT).dw
  · rw [httrace, hvtrace, hutrace]; simp

/-- Settles O39: both multi-byte reads are the one lemma at their command byte. -/
theorem accumulatorHoldsBytesReceived : Obligations.AccumulatorHoldsBytesReceived := by
  rintro i s a b rxs rest (rfl | rfl) hs hworld hw hlen hreplies
  · exact readWord_partial rfl rfl hs hworld hw hlen hreplies
  · exact readWord_partial rfl rfl hs hworld hw hlen hreplies

/-! ### The failure latch -/

/-- A failed `CsLow()`, with the `CsHigh()` of the abort sequence not answered. -/
theorem exec_select_failed {i : Instr} {code : Byte} {s : State} {rest : List Reply}
    (hi : commandByte i = some code) (hs : s.seq = .idle) (hw : usesWidth i = true → widthValid s.dw = true)
    (hreplies : s.replies = .fail :: .silent :: rest) :
    ∃ t, exec i s = .next t ∧ t.seq = .abort ∧ t.err = .pinFailure ∧ t.opr = code ∧ t.result = none ∧
      t.trace = s.trace ++ [.csLowFail] ∧ t.dw = s.dw := by
  obtain ⟨u, hu, same, hus, herr, hur, htrace, -⟩ :=
    tick_sel_fail (State.accept_seq code (latchedOperand s.wdata i) s) hreplies
  refine ⟨{ u with replies := rest }, ?_, hus, herr, same.opr, same.result, htrace, same.dw⟩
  rw [exec_accepted hi hs hw, Config.callLimit, runSequencer_moved (by simp) hu,
    runSequencer_silent (by simp [hus]) hur]

/-- A failed command byte, with the `CsHigh()` of the abort sequence not answered. -/
theorem exec_command_failed {i : Instr} {code a : Byte} {s : State} {rest : List Reply}
    (hi : commandByte i = some code) (hs : s.seq = .idle) (hw : usesWidth i = true → widthValid s.dw = true)
    (hreplies : s.replies = .ok a :: .fail :: .silent :: rest) :
    ∃ t, exec i s = .next t ∧ t.seq = .abort ∧ t.err = .transportFailure ∧ t.opr = code ∧
      t.result = none ∧ t.trace = s.trace ++ [.csLow, .xferFail code] ∧ t.dw = s.dw := by
  obtain ⟨u, hu, sameU, hus, hur, hutrace, -⟩ :=
    tick_sel_ok (State.accept_seq code (latchedOperand s.wdata i) s) hreplies
  obtain ⟨v, hv, sameV, hvs, herr, hvr, hvtrace, -⟩ := tick_cmd_fail hus hur
  have same := sameU.trans sameV
  refine ⟨{ v with replies := rest }, ?_, hvs, herr, same.opr, same.result, ?_, same.dw⟩
  · rw [exec_accepted hi hs hw, Config.callLimit, runSequencer_moved (by simp) hu,
      runSequencer_moved (by simp [hus]) hv, runSequencer_silent (by simp [hvs]) hvr]
  · rw [sameU.opr, hutrace] at hvtrace
    simpa using hvtrace

/-- A failed payload byte, with the `CsHigh()` of the abort sequence not answered. -/
theorem resume_payload_failed {s : State} {rest : List Reply} (hs : s.seq = .data)
    (hcoherent : s.coherent = true) (hreplies : s.replies = .fail :: .silent :: rest) :
    ∃ t, s.resume = .next t ∧ t.seq = .abort ∧ t.err = .transportFailure ∧ t.opr = s.opr ∧
      t.result = s.result ∧ t.dw = s.dw ∧
      t.trace = s.trace ++ [.xferFail (payloadByte (formatOf s.opr) s.dw s.wdr s.idx.toNat)] := by
  obtain ⟨u, hu, same, hus, herr, hur, htrace, -⟩ := tick_data_fail hs hreplies
  refine ⟨{ u with replies := rest }, ?_, hus, herr, same.opr, same.result, same.dw, htrace⟩
  rw [State.resume_of_coherent hcoherent, Config.callLimit, runSequencer_moved (by simp [hs]) hu,
    runSequencer_silent (by simp [hus]) hur]

/-- The `CsHigh()` of the abort sequence leaves the line high if it succeeds. -/
theorem tick_abort_line {s t : State} {rx : Byte} {rest : List Reply} (hs : s.seq = .abort)
    (h : s.replies = .ok rx :: rest) (ht : tick s = .moved t) : t.csLine = .high := by
  rw [tick_abort_row hs, State.csHighCall_ok h] at ht
  cases ht
  rfl

/-- The one `CsHigh()` of the abort sequence, answered either way, ends the operation with the latched kind. -/
theorem resume_abort {s : State} {r : Reply} {rest : List Reply} (hs : s.seq = .abort)
    (hcoherent : s.coherent = true) (hr : r ≠ .silent) (hreplies : s.replies = r :: rest) :
    ∃ t, s.resume = .next t ∧ t.seq = .idle ∧ t.result = some (.err s.err) ∧ t.dw = s.dw ∧
      t.replies = rest ∧
      (∀ rx, r = .ok rx → t.csLine = .high ∧ t.trace = s.trace ++ [.csHigh]) ∧
      (r = .fail → t.trace = s.trace ++ [.csHighFail]) := by
  obtain ⟨t, ht, hts, hdw, hresult, -, -, -, -, htr, htrace, -⟩ := tick_abort hs hr hreplies
  refine ⟨t, ?_, hts, hresult, hdw, htr, ?_, ?_⟩
  · rw [State.resume_of_coherent hcoherent, Config.callLimit, runSequencer_ended (by simp [hs]) ht hts]
  · rintro rx rfl
    exact ⟨tick_abort_line hs hreplies ht, htrace⟩
  · rintro rfl
    exact htrace

/-- A failed closing `CsHigh()` ends the operation with no further call. -/
theorem resume_deselect_failed {s : State} {rest : List Reply} (hs : s.seq = .desel)
    (hcoherent : s.coherent = true) (hreplies : s.replies = .fail :: rest) :
    ∃ t, s.resume = .next t ∧ t.seq = .idle ∧ t.result = some (.err .pinFailure) ∧ t.dw = s.dw ∧
      t.replies = rest ∧ t.trace = s.trace ++ [.csHighFail] := by
  obtain ⟨t, ht, hts, hdw, hresult, -, -, -, -, htr, htrace, -⟩ := tick_desel_fail hs hreplies
  refine ⟨t, ?_, hts, hresult, hdw, htr, htrace⟩
  rw [State.resume_of_coherent hcoherent, Config.callLimit, runSequencer_ended (by simp [hs]) ht hts]

/-- Settles O40, one lemma for each phase in which a call can fail. -/
theorem firstFailureIsLatched : Obligations.FirstFailureIsLatched :=
  ⟨fun _ _ _ _ => exec_select_failed, fun _ _ _ _ _ => exec_command_failed,
    fun _ _ => resume_payload_failed, fun _ _ _ => resume_abort, fun _ _ => resume_deselect_failed⟩

end Sys2Proof.Machine
end

section
/-!
PROOFS. The reference peripheral's place in the frame (20_memory R72): every row of the sequencer's table moves it
as it moves the sequencer (30_encoding R90).
-/

namespace Sys2Proof.Machine

/-- A listed command byte opens the payload, whatever its row makes of the registers (20_memory R72). -/
theorem Device.exchange_command_frame {d : Device} {tx : Byte} (hf : d.frame = .command)
    (hlisted : (rowOf tx).isSome = true) (k : Nat) (rx : Byte) :
    (d.exchange k tx rx).2.frame = .payload tx 0 := by
  obtain ⟨row, hr⟩ := Option.isSome_iff_exists.1 hlisted
  cases ha : row.action with
  | clear => rw [Device.exchange_clear hf hr ha]
  | load => rw [Device.exchange_load hf hr ha]
  | read => rw [Device.exchange_open hf hr (.inl ha)]
  | write => rw [Device.exchange_open hf hr (.inr ha)]

/-- A payload byte is counted, or the peripheral has no behaviour for it and loses its place (log 14). -/
theorem Device.exchange_payload_frame {d : Device} {cmd : Byte} {i : Nat} (hf : d.frame = .payload cmd i)
    (k : Nat) (tx rx : Byte) :
    (d.exchange k tx rx).2.frame = .lost ∨ (d.exchange k tx rx).2.frame = .payload cmd (i + 1) := by
  cases hr : rowOf cmd with
  | none => left; simp [Device.exchange, hf, hr, Device.loseTrack]
  | some row =>
    cases ha : row.action with
    | clear | load => left; simp [Device.exchange, hf, hr, ha, Device.loseTrack]
    | read => right; rw [Device.exchange_read hf hr ha]
    | write => right; rw [Device.exchange_write hf hr ha]

/-- A selecting edge opens a frame; on a low line there is no edge and the place is lost (70_reset_and_hazards
R204, R215). -/
theorem Device.select_frame (d : Device) (line : Level) :
    (d.select line).frame = .lost ∨ (d.select line).frame = .command := by
  cases line
  · exact .inr rfl
  · exact .inl rfl

/-- In `IDLE`, `SEL` and `ABORT` nothing is asked of the peripheral's place. -/
theorem InStep.of_outside {s : State} (h : s.seq = .idle ∨ s.seq = .sel ∨ s.seq = .abort) : InStep s := by
  intro _
  rcases h with h | h | h <;> rw [h] <;> exact .inr trivial

/-- `InStep` reads six fields only. -/
theorem InStep.congr {s t : State} (h : InStep s) (hworld : t.world = s.world) (hdev : t.dev = s.dev)
    (hseq : t.seq = s.seq) (hopr : t.opr = s.opr) (hidx : t.idx = s.idx) (hdw : t.dw = s.dw) : InStep t := by
  simpa only [InStep, State.payloadLen, hworld, hdev, hseq, hopr, hidx, hdw] using h

/-- The payload of a running operation is at most four bytes long (20_memory R56). -/
theorem State.payloadLen_le_four {s : State} (h : s.coherent = true) (hs : s.seq ≠ .idle) :
    s.payloadLen ≤ 4 :=
  payloadLength_le_four ((s.coherent_iff.1 h).1 hs).2

/-- Where a further payload byte is to come, `IDX` counts on without wrapping round. -/
theorem State.idx_succ_toNat {s : State} (h : s.coherent = true) (hs : s.seq ≠ .idle)
    (hlen : s.idx.toNat + 1 < s.payloadLen) : (s.idx + 1).toNat = s.idx.toNat + 1 := by
  have := s.payloadLen_le_four h hs
  rw [BitVec.toNat_add]
  exact Nat.mod_eq_of_lt (by simp; omega)

/-- Every row of the sequencer's table keeps the peripheral in step. -/
theorem Row.inStep {s t : State} (row : Row s t) (hs : s.seq ≠ .idle) (hc : s.coherent = true)
    (h : InStep s) : InStep t := by
  obtain ⟨hop, hidx⟩ := s.coherent_iff.1 hc
  obtain ⟨hlisted, -⟩ := hop hs
  cases row with
  | notSelected _ _ seq _ _ | commandFailed _ _ seq _ _ | dataFailed _ _ seq _ _ =>
    exact .of_outside (.inr (.inr seq))
  | completed _ _ seq _ _ _ _ | notDeselected _ _ seq _ _ _ | aborted _ _ seq _ _ _ =>
    exact .of_outside (.inl seq)
  | selected phase same seq _ _ dev =>
    intro hworld
    rw [seq, dev (same.world ▸ hworld)]
    exact s.dev.select_frame s.csLine
  | commandOnly phase same len seq _ _ dev =>
    intro hworld
    rw [same.world] at hworld
    obtain ⟨k, rx, hdev⟩ := dev hworld
    have hplace := h hworld
    rw [phase] at hplace
    rw [seq, hdev, same.payloadLen, len, same.opr]
    exact hplace.imp (Device.exchange_lost · k _ rx) (Device.exchange_command_frame · hlisted k rx)
  | command phase same _ seq idx _ _ _ dev =>
    intro hworld
    rw [same.world] at hworld
    obtain ⟨k, rx, hdev⟩ := dev hworld
    have hplace := h hworld
    rw [phase] at hplace
    rw [seq, hdev, idx, same.opr]
    exact hplace.imp (Device.exchange_lost · k _ rx) (Device.exchange_command_frame · hlisted k rx)
  | more tx _ phase same _ len seq idx _ _ _ dev =>
    intro hworld
    rw [same.world] at hworld
    obtain ⟨k, r, hdev, -⟩ := dev hworld
    have hplace := h hworld
    rw [phase] at hplace
    rw [seq, hdev, idx, State.idx_succ_toNat hc hs len, same.opr]
    exact hplace.elim (fun hl => .inl (Device.exchange_lost hl k tx r))
      (fun hp => Device.exchange_payload_frame hp k tx r)
  | last tx _ phase same _ len seq _ _ _ dev =>
    intro hworld
    rw [same.world] at hworld
    obtain ⟨k, r, hdev, -⟩ := dev hworld
    have hplace := h hworld
    have hend : s.payloadLen = s.idx.toNat + 1 := by
      have := hidx phase
      omega
    rw [phase] at hplace
    rw [seq, hdev, same.payloadLen, hend, same.opr]
    exact hplace.elim (fun hl => .inl (Device.exchange_lost hl k tx r))
      (fun hp => Device.exchange_payload_frame hp k tx r)

/-- A run of the sequencer from a sound state keeps the peripheral in step. -/
theorem runSequencer_inStep (n : Nat) {s : State} (hs : Sound s) (h : InStep s) :
    InStep (runSequencer n s) := by
  refine (runSequencer_keeps (P := fun s => Sound s ∧ InStep s) ?_ ?_ n s ⟨hs, h⟩).2
  · intro s t ⟨hsound, hin⟩ hbusy ht
    have row := tick_row ht
    exact ⟨row.sound hbusy hsound, row.inStep hbusy hsound.position hin⟩
  · intro s t ⟨hsound, hin⟩ _ ht
    obtain ⟨same, -, line, dev⟩ := tick_waiting ht
    exact ⟨hsound.congr same.dw same.seq same.idx same.opr same.result line,
      hin.congr same.world dev same.seq same.opr same.idx same.dw⟩

/-- Carrying on from a sound state keeps the peripheral in step. -/
theorem InStep.resume {s t : State} (h : InStep s) (hs : Sound s) (ht : s.resume = .next t) : InStep t := by
  rw [State.resume_next ht]
  exact runSequencer_inStep _ hs h

/-- Taking an action from the host's queue moves neither the peripheral nor the sequencer. -/
theorem InStep.present {s : State} (h : InStep s) (i : HostInput) (rest : List HostInput) :
    InStep (s.present i rest) :=
  h.congr (by simp) (by simp) (by simp) (by simp) (by simp) (by simp)

/-- A request for a listed operation keeps the peripheral in step: an accepted one begins in `SEL`. -/
theorem InStep.request {s : State} (h : InStep s) (hs : Sound s) {code : Byte}
    (hcode : (rowOf code).isSome = true) (w : Word) : InStep (s.request code w) := by
  rcases s.request_cases code w with ⟨-, heq⟩ | ⟨hidle, -, -, heq⟩ | ⟨-, -, heq⟩ <;> rw [heq]
  · exact h
  · exact .of_outside (.inl hidle)
  · exact runSequencer_inStep _ (hs.accept hcode w) (.of_outside (.inr (.inl rfl)))

/-- Settles O5: what the host presents decides the case, as for soundness. -/
theorem stepKeepsPeripheralInStep : Obligations.StepKeepsPeripheralInStep := by
  intro s t hs h ht
  cases step_cases s with
  | resumes step => exact h.resume hs (step ▸ ht)
  | quiet rest step => exact (h.present .quiet rest).resume (hs.present .quiet rest) (step ▸ ht)
  | reset rest _ step =>
    cases step.symm.trans ht
    exact .of_outside (.inl (by simp))
  | lext v rest step =>
    cases step.symm.trans ht
    exact (h.present (.lext v) rest).congr rfl rfl rfl rfl rfl rfl
  | operation op w rest i _ _ decoded step =>
    obtain ⟨hi, -⟩ := decodeRequest_ok decoded
    cases (step.trans (exec_request hi _)).symm.trans ht
    exact (h.present _ rest).request (hs.present _ rest) (commandByte_listed hi) _
  | refused op w rest idle step =>
    cases step.symm.trans ht
    exact .of_outside (.inl (by simpa using idle))

end Sys2Proof.Machine
end

section
/-!
PROOFS. The trace through an operation and through a step (20_memory R61).
-/

namespace Sys2Proof.Machine

/-- Every row of the sequencer's table adds one event. -/
theorem Row.trace_grows {s t : State} (row : Row s t) : s.trace <+: t.trace := by
  cases row with
  | selected _ _ _ trace | notSelected _ _ _ _ trace | commandFailed _ _ _ _ trace
  | more _ _ _ _ _ _ _ _ _ trace | last _ _ _ _ _ _ _ _ trace | dataFailed _ _ _ _ trace
  | completed _ _ _ _ _ trace | notDeselected _ _ _ _ _ trace => exact ⟨_, trace.symm⟩
  | commandOnly _ _ _ _ trace | command _ _ _ _ _ _ trace =>
    obtain ⟨_, trace⟩ := trace
    exact ⟨_, trace.symm⟩
  | aborted _ _ _ _ _ trace =>
    rcases trace with trace | trace <;> exact ⟨_, trace.symm⟩

/-- A run of the sequencer only adds events. -/
theorem runSequencer_trace_grows (n : Nat) (s : State) : s.trace <+: (runSequencer n s).trace := by
  refine runSequencer_keeps (P := fun t => s.trace <+: t.trace) ?_ ?_ n s (⟨[], List.append_nil _⟩)
  · exact fun t u h _ hu => h.trans (tick_row hu).trace_grows
  · intro t u h _ hu
    obtain ⟨-, trace, -⟩ := tick_waiting hu
    exact trace ▸ h

/-- A request only adds events. -/
theorem State.request_trace_grows (code : Byte) (w : Word) (s : State) :
    s.trace <+: (s.request code w).trace := by
  rcases s.request_cases code w with ⟨-, heq⟩ | ⟨-, -, -, heq⟩ | ⟨-, -, heq⟩
  · rw [heq]
  · rw [heq, State.answer_trace]
  · rw [heq]
    exact runSequencer_trace_grows _ (s.accept code w)

/-- Carrying on only adds events. -/
theorem State.resume_trace_grows {s t : State} (h : s.resume = .next t) : s.trace <+: t.trace := by
  rw [State.resume_next h]
  exact runSequencer_trace_grows _ s

theorem State.coherent_of_idle {s : State} (hs : s.seq = .idle) : s.coherent = true :=
  s.coherent_iff.2 (by simp [hs])

/-- Carrying on in `IDLE` leaves everything as it is (log 26). -/
theorem State.resume_idle {s : State} (hs : s.seq = .idle) : s.resume = .next s := by
  rw [State.resume_of_coherent (State.coherent_of_idle hs), runSequencer_idle _ hs]

/-- The reset input adds no event (70_reset_and_hazards R200). -/
@[simp] theorem State.resetInput_trace (s : State) : s.resetInput.trace = s.trace := by
  unfold State.resetInput
  split <;> simp

/-- Every step only adds events. -/
theorem step_trace_grows {s t : State} (h : step s = .next t) : s.trace <+: t.trace := by
  cases step_cases s with
  | resumes step => exact State.resume_trace_grows (step ▸ h)
  | quiet rest step => simpa using State.resume_trace_grows (step.symm.trans h)
  | reset rest _ step =>
    cases step.symm.trans h
    simp
  | lext v rest step =>
    cases step.symm.trans h
    exact ⟨[], List.append_nil _⟩
  | operation op w rest i _ _ decoded step =>
    obtain ⟨hi, -⟩ := decodeRequest_ok decoded
    cases (step.trans (exec_request hi _)).symm.trans h
    simpa using State.request_trace_grows op (latchedOperand _ i) (s.present (.request op w) rest)
  | refused op w rest _ step =>
    cases step.symm.trans h
    simp

/-- At an invalid `DW` an operation that reads it is answered before any event (60_exceptions R173). -/
theorem exec_trace_of_invalid_width {i : Instr} {code : Byte} {s t : State} (hi : commandByte i = some code)
    (hs : s.seq = .idle) (huses : usesWidth i = true) (hw : widthValid s.dw = false)
    (h : exec i s = .next t) : t.trace = s.trace := by
  cases (exec_request hi s).symm.trans h
  rcases s.request_cases code (latchedOperand s.wdata i) with ⟨hbusy, -⟩ | ⟨-, -, -, heq⟩ | ⟨-, hvalid, -⟩
  · exact absurd hs hbusy
  · rw [heq, State.answer_trace]
  · rw [readsWidth_commandByte hi] at hvalid
    rw [hvalid huses] at hw
    cases hw

/-- Settles O14: the first clause is `step_trace_grows`, and each listed case runs no operation. -/
theorem traceOnlyGrows : Obligations.TraceOnlyGrows := by
  intro s t h
  refine ⟨?_, ?_, ?_⟩
  · obtain ⟨es, htrace⟩ := step_trace_grows h
    exact ⟨es, htrace.symm⟩
  · intro hs hin
    cases (State.resume_idle hs).symm.trans ((step_of_empty hin).symm.trans h)
    rfl
  · intro x rest hin hcase
    rcases hcase with rfl | ⟨v, rfl⟩ | ⟨hs, rfl⟩ | ⟨hs, op, w, rfl, hop⟩ | ⟨hs, hw, i, hd, huses⟩
    · cases (step_of_reset hin).symm.trans h
      simp
    · cases (step_of_lext hin).symm.trans h
      rfl
    · have hidle : (s.present .quiet rest).seq = .idle := by simpa using hs
      cases (State.resume_idle hidle).symm.trans ((step_of_quiet hin).symm.trans h)
      rfl
    · cases (step_of_illegal hin hs (decodeRequest_unlisted hop w)).symm.trans h
      rfl
    · cases x with
      | lext v => cases hd; cases huses
      | reset | quiet => cases hd
      | request op w =>
        obtain ⟨hi, -⟩ := decodeRequest_ok hd
        have htrace := exec_trace_of_invalid_width hi (by simpa using hs) huses (by simpa using hw)
          ((step_of_operation hin hs hd).symm.trans h)
        simpa using htrace

end Sys2Proof.Machine
end

section
/-!
PROOFS. What the two ports show of a result (30_encoding R92, R96; 60_exceptions R170).
-/

namespace Sys2Proof.Machine

theorem State.response_of_result {s : State} {r : Result} (h : s.result = some r) :
    s.response = some (statusCode r, resultData (Config.freeOutput (2 * s.draws)) r) := by
  simp [State.response, h]

theorem State.lextPort_of_lextOut {s : State} {r : Result} (h : s.lextOut = some r) :
    s.lextPort = some (resultData (Config.freeOutput (2 * s.draws + 1)) r, statusCode r != 0#3) := by
  simp [State.lextPort, h]

/-- The status is 0 exactly where the operation has not failed (60_exceptions R170). -/
theorem statusCode_ne_zero_iff (r : Result) : (statusCode r != 0#3) = true ↔ ∃ f, r = .err f := by
  cases r with
  | done | byte | word => simp [statusCode]
  | err f => cases f <;> simp [statusCode, failureCode]

/-- Settles O42. -/
theorem responseCodes : Obligations.ResponseCodes := by
  intro s
  refine ⟨fun h => ?_, fun w h => State.response_of_result h, fun b h => State.response_of_result h,
    fun h => ?_, fun h => ?_, fun h => ?_, fun h => ?_, fun h => ?_, fun h => ?_,
    fun w h => State.lextPort_of_lextOut h,
    fun r h => ⟨_, _, State.lextPort_of_lextOut h, statusCode_ne_zero_iff r⟩⟩
  · simp [State.response, h]
  · rw [State.response_of_result h]; rfl
  · rw [State.response_of_result h]; rfl
  · rw [State.response_of_result h]; rfl
  · rw [State.response_of_result h]; rfl
  · rw [State.response_of_result h]; rfl
  · simp [State.lextPort, h]

end Sys2Proof.Machine
end

section
/-!
PROOFS. The byte-width multiplexer and the accumulator are inverse to each other (20_memory R52, R57;
30_encoding R91).
-/

namespace Sys2Proof.Machine

/-- One accumulator step is `256 * acc + rx`, as long as no bit is shifted out (30_encoding R87). -/
theorem accStep_toNat {acc : Word} (h : acc.toNat < 256 ^ 3) (rx : Byte) :
    (accStep acc rx).toNat = 256 * acc.toNat + rx.toNat := by
  have hrx : rx.toNat < 2 ^ 8 := rx.isLt
  have hfit : 2 ^ 8 * acc.toNat < 2 ^ 32 := by omega
  have hshift : acc.toNat <<< 8 % 2 ^ 32 = 2 ^ 8 * acc.toNat := by
    rw [Nat.shiftLeft_eq, Nat.mul_comm, Nat.mod_eq_of_lt hfit]
  rw [accStep, BitVec.toNat_or, BitVec.toNat_shiftLeft, hshift, BitVec.toNat_setWidth,
    Nat.mod_eq_of_lt (by omega), ← Nat.two_pow_add_eq_or_of_lt hrx]

/-- The big-endian number that bytes in order of arrival make (30_encoding R91). -/
def bigEndian (rs : List Byte) : Nat := rs.foldl (fun n r => 256 * n + r.toNat) 0

@[simp] theorem bigEndian_concat (rs : List Byte) (r : Byte) :
    bigEndian (rs ++ [r]) = 256 * bigEndian rs + r.toNat := by simp [bigEndian]

theorem bigEndian_lt (rs : List Byte) : bigEndian rs < 256 ^ rs.length := by
  induction rs using List.reverseRecOn with
  | nil => simp [bigEndian]
  | append_singleton rs r ih =>
    have hr : r.toNat < 2 ^ 8 := r.isLt
    rw [bigEndian_concat, List.length_append, List.length_singleton, Nat.pow_succ]
    omega

/-- The accumulator holds the big-endian number of at most four bytes (20_memory R52). -/
theorem assemble_toNat (rs : List Byte) (h : rs.length ≤ 4) : (assemble rs).toNat = bigEndian rs := by
  induction rs using List.reverseRecOn with
  | nil => rfl
  | append_singleton rs r ih =>
    rw [List.length_append, List.length_singleton] at h
    have ih := ih (by omega)
    have hfit : (assemble rs).toNat < 256 ^ 3 :=
      ih ▸ (bigEndian_lt rs).trans_le (Nat.pow_le_pow_right (by omega) (by omega))
    rw [assemble_concat, accStep_toNat hfit, ih, bigEndian_concat]

/-- The byte last shifted in is the multiplexer's last byte. -/
theorem txByte_accStep_last (acc : Word) (rx : Byte) (w : Nat) : txByte (accStep acc rx) (w + 1) w = rx := by
  apply BitVec.eq_of_getLsbD_eq
  intro j hj
  rw [txByte_getLsbD, Nat.add_sub_cancel, Nat.sub_self, Nat.mul_zero, Nat.zero_add,
    accStep_getLsbD acc rx j (by omega), if_pos hj]
  simp [hj]

/-- A byte shifted in moves the bytes before it one place up. -/
theorem txByte_accStep_before (acc : Word) (rx : Byte) {w i : Nat} (hi : i < w) (hw : w ≤ 3) :
    txByte (accStep acc rx) (w + 1) i = txByte acc w i := by
  apply BitVec.eq_of_getLsbD_eq
  intro j hj
  rw [txByte_getLsbD, txByte_getLsbD, accStep_getLsbD _ _ _ (by omega), if_neg (by omega)]
  congr 2
  omega

/-- The multiplexer takes byte `i` from where the accumulator has put it (20_memory R52, 30_encoding R91). -/
theorem txByte_assemble (rs : List Byte) (h : rs.length ≤ 4) :
    ∀ (i : Nat) (hi : i < rs.length), txByte (assemble rs) rs.length i = rs[i] := by
  induction rs using List.reverseRecOn with
  | nil => exact fun i hi => absurd hi (Nat.not_lt_zero i)
  | append_singleton rs r ih =>
    intro i hi
    rw [List.length_append, List.length_singleton] at h hi
    simp only [assemble_concat, List.length_append, List.length_singleton]
    by_cases hlast : i = rs.length
    · subst hlast
      simpa using txByte_accStep_last (assemble rs) r rs.length
    · have hbefore : i < rs.length := by omega
      rw [txByte_accStep_before _ _ hbefore (by omega), ih (by omega) i hbefore,
        List.getElem_append_left hbefore]

/-- At most four bytes are known from what the accumulator makes of them. -/
theorem eq_of_assemble_eq {rs rs' : List Byte} (hlen : rs.length = rs'.length) (h : rs.length ≤ 4)
    (heq : assemble rs = assemble rs') : rs = rs' := by
  refine List.ext_getElem hlen fun i hi hi' => ?_
  rw [← txByte_assemble rs h i hi, ← txByte_assemble rs' (hlen ▸ h) i hi', heq, hlen]

/-- Settles O22. -/
theorem assembleIsBigEndian : Obligations.AssembleIsBigEndian := fun rs h =>
  ⟨txByte_assemble rs h, assemble_toNat rs h, assemble_toNat rs h ▸ bigEndian_lt rs⟩

/-- The multiplexer's byte as a digit to the base 256. -/
theorem txByte_toNat (v : Word) (w i : Nat) :
    (txByte v w i).toNat = v.toNat / 2 ^ (8 * (w - 1 - i)) % 2 ^ 8 := by
  rw [txByte, BitVec.toNat_setWidth, BitVec.toNat_ushiftRight, Nat.shiftRight_eq_div_pow]

/-- The first `n` of the `w` bytes that the multiplexer takes from `v` (30_encoding R91). -/
def leadingBytes (v : Word) (w n : Nat) : List Byte := (List.range n).map (txByte v w)

@[simp] theorem leadingBytes_length (v : Word) (w n : Nat) : (leadingBytes v w n).length = n := by
  simp [leadingBytes]

@[simp] theorem leadingBytes_succ (v : Word) (w n : Nat) :
    leadingBytes v w (n + 1) = leadingBytes v w n ++ [txByte v w n] := by
  simp [leadingBytes, List.range_succ]

/-- The payload of a multi-byte write is all the bytes the multiplexer takes at that width (42_write R140). -/
theorem payloadBytes_writeWord (dw : Width) (v : Word) :
    payloadBytes .writeWord dw v = leadingBytes v dw.toNat dw.toNat := by
  simp [payloadBytes, payloadLength, payloadByte, isRead, leadingBytes]

/-- One digit more of a number cut off at `b` bits. -/
theorem mod_two_pow_div_digit (x b m : Nat) (h : m + 8 ≤ b) :
    2 ^ 8 * (x % 2 ^ b / 2 ^ (m + 8)) + x / 2 ^ m % 2 ^ 8 = x % 2 ^ b / 2 ^ m := by
  have hdigit : x / 2 ^ m % 2 ^ 8 = x % 2 ^ b / 2 ^ m % 2 ^ 8 := by
    obtain ⟨c, rfl⟩ := Nat.exists_eq_add_of_le (show m ≤ b by omega)
    rw [Nat.pow_add, Nat.mod_mul_right_div_self, Nat.mod_mod_of_dvd _ (pow_dvd_pow 2 (by omega))]
  rw [hdigit, Nat.pow_add, ← Nat.div_div_eq_div_mul]
  exact Nat.div_add_mod _ _

/-- The first `n` bytes of the low `8 * w` bits of `v`, assembled (20_memory R53, R57). -/
theorem assemble_leadingBytes_toNat (v : Word) {w n : Nat} (hw : w ≤ 4) (hn : n ≤ w) :
    (assemble (leadingBytes v w n)).toNat = v.toNat % 2 ^ (8 * w) / 2 ^ (8 * (w - n)) := by
  rw [assemble_toNat _ (by simpa using hn.trans hw)]
  induction n with
  | zero =>
    rw [Nat.sub_zero, Nat.div_eq_of_lt (Nat.mod_lt _ (Nat.two_pow_pos _))]
    rfl
  | succ n ih =>
    have hpos : 8 * (w - n) = 8 * (w - 1 - n) + 8 := by omega
    rw [leadingBytes_succ, bigEndian_concat, ih (by omega), txByte_toNat, hpos,
      show w - (n + 1) = w - 1 - n by omega]
    exact mod_two_pow_div_digit _ _ _ (by omega)

/-- All `w` bytes give the low `8 * w` bits. -/
theorem assemble_leadingBytes_self_toNat (v : Word) {w : Nat} (hw : w ≤ 4) :
    (assemble (leadingBytes v w w)).toNat = v.toNat % 2 ^ (8 * w) := by
  rw [assemble_leadingBytes_toNat v hw (Nat.le_refl w)]
  simp

theorem widthValid_iff (dw : Width) : widthValid dw = true ↔ 1 ≤ dw.toNat ∧ dw.toNat ≤ 4 := by
  simp [widthValid]

/-- Settles O23: the payload assembles to the low bits, and so those bits determine it. -/
theorem writePayloadIsLowBytes : Obligations.WritePayloadIsLowBytes := by
  intro dw v hw
  have hfour := ((widthValid_iff dw).1 hw).2
  simp only [payloadBytes_writeWord]
  refine ⟨leadingBytes_length .., assemble_leadingBytes_self_toNat v hfour, fun u hu => ?_⟩
  refine eq_of_assemble_eq (by simp) (by simpa using hfour) (BitVec.eq_of_toNat_eq ?_)
  rw [assemble_leadingBytes_self_toNat u hfour, assemble_leadingBytes_self_toNat v hfour, hu]

end Sys2Proof.Machine
end

section
/-!
PROOFS. An operation that waits and goes on (20_memory R61, 60_exceptions R189): no row of the sequencer's table
looks at the script beyond the answer it takes, and seven calls end every operation (log 30).
-/

namespace Sys2Proof.Machine

/-! ### The script -/

/-- `s` with the script `rs`. -/
def State.script (rs : List Reply) (s : State) : State := { s with replies := rs }

@[simp] theorem State.script_seq (rs : List Reply) (s : State) : (s.script rs).seq = s.seq := rfl
@[simp] theorem State.script_dw (rs : List Reply) (s : State) : (s.script rs).dw = s.dw := rfl
@[simp] theorem State.script_opr (rs : List Reply) (s : State) : (s.script rs).opr = s.opr := rfl
@[simp] theorem State.script_wdr (rs : List Reply) (s : State) : (s.script rs).wdr = s.wdr := rfl
@[simp] theorem State.script_idx (rs : List Reply) (s : State) : (s.script rs).idx = s.idx := rfl

theorem State.script_onDevice (rs : List Reply) (g : Device → Device) (s : State) :
    (s.script rs).onDevice g = (s.onDevice g).script rs := by
  unfold State.onDevice
  cases h : s.world <;> simp only [State.script, h]

theorem State.afterCommand_of_empty {s : State} (h : s.payloadLen = 0) :
    s.afterCommand = { s with seq := .desel } := if_pos h

theorem State.afterCommand_of_payload {s : State} (h : s.payloadLen ≠ 0) :
    s.afterCommand = { s with seq := .data, idx := 0, acc := if isRead (formatOf s.opr) then 0 else s.acc } :=
  if_neg h

theorem State.script_afterCommand (rs : List Reply) (s : State) :
    (s.script rs).afterCommand = s.afterCommand.script rs := by
  by_cases h : s.payloadLen = 0
  · rw [State.afterCommand_of_empty h, State.afterCommand_of_empty (s := s.script rs) h]; rfl
  · rw [State.afterCommand_of_payload h, State.afterCommand_of_payload (s := s.script rs) h]; rfl

/-- What a payload byte leaves in `ACC`: a read shifts it in, a write discards it (30_encoding R86, R87). -/
def State.accumulate (rx : Byte) (s : State) : State :=
  { s with acc := if isRead (formatOf s.opr) then accStep s.acc rx else s.acc }

theorem State.afterData_eq (rx : Byte) (s : State) :
    s.afterData rx = if s.idx.toNat + 1 < s.payloadLen then { s.accumulate rx with idx := s.idx + 1 }
      else { s.accumulate rx with seq := .desel } := by
  unfold State.afterData State.accumulate
  cases isRead (formatOf s.opr) <;> rfl

theorem State.script_afterData (rs : List Reply) (rx : Byte) (s : State) :
    (s.script rs).afterData rx = (s.afterData rx).script rs := by
  rw [State.afterData_eq, State.afterData_eq, apply_ite (State.script rs)]
  rfl

theorem State.commit_of_wrMdr1 {s : State} (h : s.opr = 0x90#8) :
    s.commit = { s with dw := widthOfMdr1 (byteOperand s.wdr) } := if_pos h

theorem State.commit_of_other {s : State} (h : s.opr ≠ 0x90#8) : s.commit = s := if_neg h

theorem State.script_succeed (rs : List Reply) (s : State) :
    (s.script rs).succeed = s.succeed.script rs := by
  by_cases h : s.opr = 0x90#8
  · rw [State.succeed, State.succeed, State.commit_of_wrMdr1 h, State.commit_of_wrMdr1 (s := s.script rs) h]
    rfl
  · rw [State.succeed, State.succeed, State.commit_of_other h, State.commit_of_other (s := s.script rs) h]
    rfl

/-- What a call came to, with the script `rs` after it. -/
def Called.script (rs : List Reply) : Called → Called
  | .ok rx t => .ok rx (t.script rs)
  | .fail t => .fail (t.script rs)
  | .silent t => .silent (t.script rs)

theorem State.nextReply_script (s : State) (r : Reply) (rs : List Reply) :
    (s.script (r :: rs)).nextReply = (r, s.script rs) := rfl

theorem State.csLowCall_script (s : State) (r : Reply) (rs : List Reply) :
    (s.script (r :: rs)).csLowCall = (s.script [r]).csLowCall.script rs := by
  cases r <;> simp only [State.csLowCall, State.nextReply_script, State.script_onDevice] <;> rfl

theorem State.csHighCall_script (s : State) (r : Reply) (rs : List Reply) :
    (s.script (r :: rs)).csHighCall = (s.script [r]).csHighCall.script rs := by
  cases r <;> simp only [State.csHighCall, State.nextReply_script, State.script_onDevice] <;> rfl

theorem State.xferCall_script (s : State) (tx : Byte) (r : Reply) (rs : List Reply) :
    (s.script (r :: rs)).xferCall tx = ((s.script [r]).xferCall tx).script rs := by
  cases r <;> simp only [State.xferCall, State.nextReply_script, State.script_onDevice] <;> rfl

/-- What a row of the sequencer's table came to, with the script `rs` after it. -/
def Tick.script (rs : List Reply) : Tick → Tick
  | .moved t => .moved (t.script rs)
  | .waiting t => .waiting (t.script rs)

/-- A row of the sequencer's table takes one answer from the script and does not look at the rest. -/
theorem tick_script {s : State} (hs : s.seq ≠ .idle) (r : Reply) (rs : List Reply) :
    tick (s.script (r :: rs)) = (tick (s.script [r])).script rs := by
  cases hp : s.seq with
  | idle => exact absurd hp hs
  | sel =>
    have row (q : List Reply) := tick_sel_row (s := s.script q) hp
    rw [row, row, State.csLowCall_script]
    cases (s.script [r]).csLowCall <;> rfl
  | cmd =>
    have row (q : List Reply) := tick_cmd_row (s := s.script q) hp
    simp only [State.script_opr] at row
    rw [row, row, State.xferCall_script]
    cases (s.script [r]).xferCall s.opr <;> simp only [Called.script, State.script_afterCommand] <;> rfl
  | data =>
    have row (q : List Reply) := tick_data_row (s := s.script q) hp
    simp only [State.script_opr, State.script_dw, State.script_wdr, State.script_idx] at row
    rw [row, row, State.xferCall_script]
    cases (s.script [r]).xferCall (payloadByte (formatOf s.opr) s.dw s.wdr s.idx.toNat) <;>
      simp only [Called.script, State.script_afterData] <;> rfl
  | desel =>
    have row (q : List Reply) := tick_desel_row (s := s.script q) hp
    rw [row, row, State.csHighCall_script]
    cases (s.script [r]).csHighCall <;> simp only [Called.script, State.script_succeed] <;> rfl
  | abort =>
    have row (q : List Reply) := tick_abort_row (s := s.script q) hp
    rw [row, row, State.csHighCall_script]
    cases (s.script [r]).csHighCall <;> rfl

/-! ### How many calls are left -/

/-- The host's side through a row of the sequencer's table (30_encoding R96). -/
theorem Row.hostSide {s t : State} (row : Row s t) : KeepsHostSide s t := by
  cases row with
  | completed _ host | notDeselected _ host | aborted _ host => exact host
  | selected _ same | notSelected _ same | commandOnly _ same | command _ same | commandFailed _ same
  | dataFailed _ same | more _ _ _ same | last _ _ _ same =>
    exact ⟨same.inbox, same.wdata, same.lextOut, same.world⟩

/-- Within an operation, coherence after a row is a matter of `IDX` in `DATA`. -/
theorem State.coherent_of_sameOperation {s t : State} (h : s.coherent = true) (hs : s.seq ≠ .idle)
    (same : SameOperation s t) (hidx : t.seq = .data → t.idx.toNat < t.payloadLen) : t.coherent = true := by
  obtain ⟨hop, -⟩ := s.coherent_iff.1 h
  refine t.coherent_iff.2 ⟨fun _ => ?_, hidx⟩
  rw [same.opr, same.dw]
  exact hop hs

/-- Every row of the sequencer's table leads to a position of the sequencer, at whatever `DW` (30_encoding R90). -/
theorem Row.coherent {s t : State} (row : Row s t) (hs : s.seq ≠ .idle) (h : s.coherent = true) :
    t.coherent = true := by
  cases row with
  | selected _ same seq | notSelected _ same seq | commandFailed _ same seq | dataFailed _ same seq
  | commandOnly _ same _ seq | last _ _ _ same _ _ seq =>
    exact State.coherent_of_sameOperation h hs same (by simp [seq])
  | command _ same len _ idx =>
    refine State.coherent_of_sameOperation h hs same fun _ => ?_
    rw [idx, same.payloadLen]
    exact Nat.pos_of_ne_zero len
  | more _ _ _ same _ len _ idx =>
    refine State.coherent_of_sameOperation h hs same fun _ => ?_
    rw [idx, same.payloadLen, State.idx_succ_toNat h hs len]
    exact len
  | completed _ _ seq | notDeselected _ _ seq | aborted _ _ seq => exact State.coherent_of_idle seq

/-- The most calls that the operation can still make (30_encoding R84, log 30). -/
def State.callsLeft (s : State) : Nat :=
  match s.seq with
  | .idle => 0
  | .abort | .desel => 1
  | .data => s.payloadLen - s.idx.toNat + 1
  | .cmd => s.payloadLen + 2
  | .sel => s.payloadLen + 3

/-- A running operation has a call to make. -/
theorem State.callsLeft_pos {s : State} (hs : s.seq ≠ .idle) : 0 < s.callsLeft := by
  unfold State.callsLeft
  split
  · contradiction
  all_goals exact Nat.succ_pos _

/-- No operation makes more calls than the longest frame has (30_encoding R84). -/
theorem State.callsLeft_le {s : State} (h : s.coherent = true) : s.callsLeft ≤ Config.callLimit := by
  by_cases hs : s.seq = .idle
  · simp [State.callsLeft, hs]
  · have := s.payloadLen_le_four h hs
    unfold State.callsLeft Config.callLimit
    split <;> omega

/-- Every answered call brings the operation nearer to its end. -/
theorem Row.callsLeft_lt {s t : State} (row : Row s t) (hs : s.seq ≠ .idle) (h : s.coherent = true) :
    t.callsLeft < s.callsLeft := by
  obtain ⟨-, hidx⟩ := s.coherent_iff.1 h
  cases row with
  | selected phase same seq | notSelected phase same seq | commandFailed phase same seq
  | commandOnly phase same _ seq =>
    simp [State.callsLeft, phase, seq, same.payloadLen]
  | dataFailed phase _ seq | last _ _ phase _ _ _ seq =>
    have := hidx phase
    simp only [State.callsLeft, phase, seq]
    omega
  | command phase same _ seq idx =>
    simp [State.callsLeft, phase, seq, same.payloadLen, idx]
  | more _ _ phase same _ len seq idx =>
    simp only [State.callsLeft, phase, seq, same.payloadLen, idx, State.idx_succ_toNat h hs len]
    omega
  | completed phase _ seq | notDeselected phase _ seq | aborted phase _ seq =>
    simp [State.callsLeft, phase, seq]

/-- A run that may make all the calls left does not depend on how many more it may make. -/
theorem runSequencer_fuel (n : Nat) : ∀ (m : Nat) (s : State), s.coherent = true → s.callsLeft ≤ n →
    s.callsLeft ≤ m → runSequencer n s = runSequencer m s := by
  induction n with
  | zero =>
    intro m s _ hn _
    by_cases hs : s.seq = .idle
    · rw [runSequencer_idle _ hs, runSequencer_idle _ hs]
    · have := State.callsLeft_pos hs
      omega
  | succ n ih =>
    intro m s h hn hm
    by_cases hs : s.seq = .idle
    · rw [runSequencer_idle _ hs, runSequencer_idle _ hs]
    · obtain ⟨m, rfl⟩ := Nat.exists_eq_succ_of_ne_zero (Nat.ne_of_gt ((State.callsLeft_pos hs).trans_le hm))
      cases ht : tick s with
      | waiting t => rw [runSequencer_waiting hs ht, runSequencer_waiting hs ht]
      | moved t =>
        have row := tick_row ht
        have hlt := row.callsLeft_lt hs h
        rw [runSequencer_moved hs ht, runSequencer_moved hs ht]
        exact ih m t (row.coherent hs h) (by omega) (by omega)

/-! ### The wait -/

/-- An answer other than silence moves the sequencer. -/
theorem tick_answered {s : State} {r : Reply} {rest : List Reply} (hs : s.seq ≠ .idle) (hr : r ≠ .silent)
    (h : s.replies = r :: rest) : ∃ t, tick s = .moved t := by
  cases hp : s.seq with
  | idle => exact absurd hp hs
  | abort => exact (tick_abort hp hr h).imp fun _ => And.left
  | sel =>
    cases r with
    | silent => exact absurd rfl hr
    | ok => exact (tick_sel_ok hp h).imp fun _ => And.left
    | fail => exact (tick_sel_fail hp h).imp fun _ => And.left
  | cmd =>
    cases r with
    | silent => exact absurd rfl hr
    | ok => exact (tick_cmd_ok hp h).imp fun _ => And.left
    | fail => exact (tick_cmd_fail hp h).imp fun _ => And.left
  | data =>
    cases r with
    | silent => exact absurd rfl hr
    | ok => exact (tick_data_ok hp h rfl).imp fun _ => And.left
    | fail => exact (tick_data_fail hp h).imp fun _ => And.left
  | desel =>
    cases r with
    | silent => exact absurd rfl hr
    | ok => exact (tick_desel_ok hp h).imp fun _ => And.left
    | fail => exact (tick_desel_fail hp h).imp fun _ => And.left

/-- A run that has not ended its operation had one to run. -/
theorem busy_of_runSequencer_busy {n : Nat} {s t : State} (h : t = runSequencer n s) (ht : t.seq ≠ .idle) :
    s.seq ≠ .idle := fun hs => ht (by rw [h, runSequencer_idle n hs]; exact hs)

/-- A run cut short by the one unanswered call of its script and taken up again comes to what the run without that
call comes to. -/
theorem runSequencer_wait (post pre : List Reply) : ∀ (n : Nat) (s t : State), s.coherent = true →
    s.callsLeft ≤ n → .silent ∉ pre → t = runSequencer n (s.script (pre ++ .silent :: post)) → t.seq ≠ .idle →
    t.coherent = true ∧ t.inbox = s.inbox ∧
      runSequencer Config.callLimit t = runSequencer n (s.script (pre ++ post)) := by
  induction pre with
  | nil =>
    intro n s t h hn _ hrun ht
    have hs := busy_of_runSequencer_busy hrun ht
    rw [State.script_seq] at hs
    obtain ⟨n, rfl⟩ := Nat.exists_eq_succ_of_ne_zero (Nat.ne_of_gt ((State.callsLeft_pos hs).trans_le hn))
    cases hrun.trans (runSequencer_silent (s := s.script (.silent :: post)) hs rfl)
    exact ⟨h, rfl, runSequencer_fuel _ _ (s.script post) h (State.callsLeft_le (s := s.script post) h) hn⟩
  | cons r pre ih =>
    intro n s t h hn hpre hrun ht
    rw [List.mem_cons, not_or] at hpre
    obtain ⟨hr, hpre⟩ := hpre
    have hs := busy_of_runSequencer_busy hrun ht
    rw [State.script_seq] at hs
    obtain ⟨n, rfl⟩ := Nat.exists_eq_succ_of_ne_zero (Nat.ne_of_gt ((State.callsLeft_pos hs).trans_le hn))
    obtain ⟨u, hu⟩ := tick_answered (s := s.script [r]) hs (Ne.symm hr) rfl
    have row := tick_row hu
    have hlt : u.callsLeft < s.callsLeft := row.callsLeft_lt hs h
    have moved (rs : List Reply) : runSequencer (n + 1) (s.script (r :: rs)) = runSequencer n (u.script rs) :=
      runSequencer_moved (s := s.script (r :: rs)) hs (by rw [tick_script hs, hu]; rfl)
    rw [List.cons_append, moved] at hrun
    rw [List.cons_append, moved]
    obtain ⟨htc, htin, hrest⟩ := ih n u t (row.coherent hs h) (by omega) hpre hrun ht
    exact ⟨htc, htin.trans row.hostSide.inbox, hrest⟩

/-- Settles O36: an operation that still runs was accepted, and its run goes on from the wait with the fuel of a
step. -/
theorem waitingDoesNotChangeTheOutcome : Obligations.WaitingDoesNotChangeTheOutcome := by
  intro i code s t pre post hi hs hin hpre hrun ht
  rw [exec_request hi] at hrun ⊢
  cases hrun
  rcases State.request_cases code (latchedOperand s.wdata i) (s.script (pre ++ .silent :: post)) with
    ⟨hbusy, -⟩ | ⟨-, -, -, heq⟩ | ⟨-, hvalid, heq⟩
  · exact absurd hs hbusy
  · exact absurd (show (State.request code _ (s.script _)).seq = .idle by rw [heq]; exact hs) ht
  · have haccept : (s.accept code (latchedOperand s.wdata i)).coherent = true :=
      (s.accept code _).coherent_iff.2 ⟨fun _ => ⟨commandByte_listed hi, hvalid⟩, by simp⟩
    obtain ⟨hc, hinbox, hrest⟩ := runSequencer_wait post pre Config.callLimit _ _ haccept
      (State.callsLeft_le haccept) hpre rfl (heq ▸ ht)
    change step (State.request code _ (s.script _)) = .next (State.request code _ (s.script (pre ++ post)))
    rw [State.request_accepted (s := s.script (pre ++ post)) hs hvalid, heq]
    refine (step_of_empty (hinbox.trans hin)).trans ((State.resume_of_coherent hc).trans ?_)
    exact congrArg Host.Outcome.next hrest

end Sys2Proof.Machine
end

section
/-!
PROOFS. A bus operation attached to the reference peripheral, every call answered ok (20_memory R70 to R76): the
peripheral lives through the frame that the sequencer runs.
-/

namespace Sys2Proof.Machine

/-- An engine that can take an operation, attached to the reference peripheral, with the line high (20_memory R70,
70_reset_and_hazards R204). -/
structure ReadyForFrame (s : State) : Prop where
  idle : s.seq = .idle
  attached : s.world = .reference
  line : s.csLine = .high

/-- The operation that began at `s` is over, with the line high again, and has left the answers `rest`. -/
structure FrameEnded (s t : State) (rest : List Reply) : Prop where
  idle : t.seq = .idle
  host : KeepsHostSide s t
  line : t.csLine = .high
  replies : t.replies = rest

theorem FrameEnded.ready {s t : State} {rest : List Reply} (h : FrameEnded s t rest) (hs : ReadyForFrame s) :
    ReadyForFrame t := ⟨h.idle, h.host.world.trans hs.attached, h.line⟩

/-- The frame of command byte `code` as the reference peripheral lives through it, from `d` before the frame to
`d'` after it, when the engine has `dw` and `wdr`. -/
structure ReferenceFrame (d d' : Device) (code : Byte) (dw : Width) (wdr : Word) where
  /-- The peripheral before payload byte `m`. -/
  place : Nat → Device
  /-- What it returns in payload transfer `m` of a read. -/
  byte : Nat → Byte
  opens : ∀ k rx, (({ d with frame := .command } : Device).exchange k code rx).2 = place 0
  moves : ∀ m < payloadLength (formatOf code) dw, ∀ k rx,
    ((place m).exchange k (payloadByte (formatOf code) dw wdr m) rx).2 = place (m + 1)
  returns : isRead (formatOf code) = true → ∀ m < payloadLength (formatOf code) dw, ∀ k tx rx,
    ((place m).exchange k tx rx).1 = byte m
  closes : ∀ k, (place (payloadLength (formatOf code) dw)).deselect k = d'

/-- The bytes a read of that frame receives. -/
def ReferenceFrame.received {d d' : Device} {code : Byte} {dw : Width} {wdr : Word}
    (F : ReferenceFrame d d' code dw wdr) (m : Nat) : List Byte := (List.range m).map F.byte

@[simp] theorem ReferenceFrame.received_succ {d d' : Device} {code : Byte} {dw : Width} {wdr : Word}
    (F : ReferenceFrame d d' code dw wdr) (m : Nat) : F.received (m + 1) = F.received m ++ [F.byte m] := by
  simp [ReferenceFrame.received, List.range_succ]

/-- The engine and the peripheral after `m` payload bytes of the frame. -/
structure ReferenceFrame.At {d d' : Device} {code : Byte} {dw : Width} {wdr : Word}
    (F : ReferenceFrame d d' code dw wdr) (m : Nat) (s : State) : Prop where
  attached : s.world = .reference
  opr : s.opr = code
  dw : s.dw = dw
  wdr : s.wdr = wdr
  dev : s.dev = F.place m
  acc : isRead (formatOf code) = true → s.acc = assemble (F.received m)

section
variable {d d' : Device} {code : Byte} {dw : Width} {wdr : Word} {F : ReferenceFrame d d' code dw wdr}

theorem ReferenceFrame.At.payloadLen {m : Nat} {s : State} (h : F.At m s) :
    s.payloadLen = payloadLength (formatOf code) dw := by rw [State.payloadLen, h.opr, h.dw]

/-- One payload byte answered ok: both move to the next place of the frame. -/
theorem ReferenceFrame.At.transfer {s : State} {rx : Byte} {rest : List Reply}
    (h : F.At s.idx.toNat s) (hs : s.seq = .data) (hm : s.idx.toNat < payloadLength (formatOf code) dw)
    (hreplies : s.replies = .ok rx :: rest) :
    ∃ t, tick s = .moved t ∧ SameOperation s t ∧ F.At (s.idx.toNat + 1) t ∧ t.replies = rest ∧
      ((s.idx.toNat + 1 < s.payloadLen ∧ t.seq = .data ∧ t.idx = s.idx + 1) ∨
        (¬ s.idx.toNat + 1 < s.payloadLen ∧ t.seq = .desel)) := by
  obtain ⟨t, ht, same, hphase, hacc, htr, -, -, -, hdev⟩ := tick_data_ok hs hreplies rfl
  refine ⟨t, ht, same, ⟨same.world.trans h.attached, same.opr.trans h.opr, same.dw.trans h.dw,
    same.wdr.trans h.wdr, ?_, fun hread => ?_⟩, htr, hphase⟩
  · rw [hdev h.attached, h.opr, h.dw, h.wdr, h.dev, F.moves _ hm]
  · rw [hacc, h.opr, if_pos hread, h.acc hread, State.received_reference h.attached, h.dev,
      F.returns hread _ hm, F.received_succ, assemble_concat]

/-- The rest of the payload, every byte answered ok, brings both to the end of the frame. -/
theorem runSequencer_reference_payload (rest : List Reply) (n : Nat) (rxs : List Byte) : ∀ (s : State),
    F.At s.idx.toNat s → s.seq = .data → payloadLength (formatOf code) dw ≤ 4 → rxs ≠ [] →
    s.idx.toNat + rxs.length = payloadLength (formatOf code) dw → s.replies = rxs.map .ok ++ rest →
    ∃ t, runSequencer (rxs.length + n) s = runSequencer n t ∧ SameOperation s t ∧ t.seq = .desel ∧
      F.At (payloadLength (formatOf code) dw) t ∧ t.replies = rest := by
  induction rxs with
  | nil => exact fun _ _ _ _ hne => absurd rfl hne
  | cons rx rxs ih =>
    intro s h hs hfour _ hlen hreplies
    rw [List.length_cons] at hlen
    obtain ⟨u, hu, sameU, hAt, hur, hphase⟩ := h.transfer hs (by omega) hreplies
    have hrun : runSequencer ((rx :: rxs).length + n) s = runSequencer (rxs.length + n) u := by
      rw [List.length_cons, Nat.add_right_comm, runSequencer_moved (by simp [hs]) hu]
    rw [hrun]
    rw [h.payloadLen] at hphase
    rcases hphase with ⟨hmore, hus, hidx⟩ | ⟨hlast, hus⟩
    · have hidx : u.idx.toNat = s.idx.toNat + 1 := by
        rw [hidx, BitVec.toNat_add]
        exact Nat.mod_eq_of_lt (by simp; omega)
      have hne : rxs ≠ [] := by
        rintro rfl
        simp at hlen
        omega
      obtain ⟨t, ht, sameT, hend⟩ := ih u (hidx ▸ hAt) hus hfour hne (by omega) hur
      exact ⟨t, ht, sameU.trans sameT, hend⟩
    · have hend : s.idx.toNat + 1 = payloadLength (formatOf code) dw := by omega
      obtain rfl : rxs = [] := List.length_eq_zero_iff.1 (by omega)
      rw [List.length_nil, Nat.zero_add]
      exact ⟨u, rfl, sameU, hus, hend ▸ hAt, hur⟩

end

/-- A result that carries no value received does not depend on `ACC`. -/
theorem okResult_of_not_isRead {f : Format} (hf : isRead f = false) (acc acc' : Word) :
    okResult f acc = okResult f acc' := by
  cases f with
  | readByte | readWord => cases hf
  | commandOnly | writeByte | writeWord => rfl

/-- A read receives at least one byte (20_memory R56). -/
theorem payloadLength_pos_of_isRead {f : Format} {dw : Width} (hf : isRead f = true)
    (hw : readsWidth f = true → widthValid dw = true) : 0 < payloadLength f dw := by
  cases f with
  | readByte => exact Nat.one_pos
  | readWord => exact ((widthValid_iff dw).1 (hw rfl)).1
  | commandOnly | writeByte | writeWord => cases hf

/-- The command byte, answered ok, brings engine and peripheral to the first place of the frame. -/
theorem exec_reference_opened {i : Instr} {code a b : Byte} {s : State} {d' : Device} {rest : List Reply}
    (F : ReferenceFrame s.dev d' code s.dw (latchedOperand s.wdata i)) (hi : commandByte i = some code)
    (hs : ReadyForFrame s) (hw : usesWidth i = true → widthValid s.dw = true)
    (hreplies : s.replies = .ok a :: .ok b :: rest) :
    ∃ t, exec i s = .next (runSequencer 5 t) ∧ KeepsHostSide s t ∧ F.At 0 t ∧ t.replies = rest ∧
      ((payloadLength (formatOf code) s.dw = 0 ∧ t.seq = .desel) ∨
        (payloadLength (formatOf code) s.dw ≠ 0 ∧ t.seq = .data ∧ t.idx = 0)) := by
  obtain ⟨u, hu, sameU, hus, hur, -, -, -, hudev⟩ :=
    tick_sel_ok (State.accept_seq code (latchedOperand s.wdata i) s) hreplies
  obtain ⟨t, ht, sameT, hphase, htr, -, -, -, htdev⟩ := tick_cmd_ok hus hur
  have same := sameU.trans sameT
  have hudev : u.dev = { s.dev with frame := .command } := by
    rw [hudev hs.attached, State.accept_csLine, hs.line, State.accept_dev, Device.select_high]
  refine ⟨t, ?_, ⟨same.inbox, same.wdata, same.lextOut, same.world⟩, ⟨same.world.trans hs.attached, same.opr, same.dw,
    same.wdr, ?_, fun hread => ?_⟩, htr, ?_⟩
  · rw [exec_accepted hi hs.idle hw, Config.callLimit, runSequencer_moved (by simp) hu,
      runSequencer_moved (by simp [hus]) ht]
  · rw [htdev (sameU.world.trans hs.attached), hudev, sameU.opr, State.accept_opr, F.opens]
  · rcases hphase with ⟨hzero, -⟩ | ⟨-, -, -, hacc⟩
    · have hpos : 0 < payloadLength (formatOf code) s.dw :=
        payloadLength_pos_of_isRead hread (readsWidth_commandByte hi ▸ hw)
      rw [sameU.payloadLen] at hzero
      exact absurd hzero (Nat.ne_of_gt hpos)
    · exact hacc (by rw [sameU.opr]; exact hread)
  · rw [sameU.payloadLen] at hphase
    exact hphase.imp id fun ⟨hn, hts, hidx, _⟩ => ⟨hn, hts, hidx⟩

/-- A bus operation attached to the reference peripheral, with every call answered ok, takes the peripheral through
its frame and ends with the value of the bytes returned. -/
theorem exec_reference {i : Instr} {code a b c : Byte} {s : State} {d' : Device} {rxs : List Byte}
    {rest : List Reply} (F : ReferenceFrame s.dev d' code s.dw (latchedOperand s.wdata i))
    (hi : commandByte i = some code) (hs : ReadyForFrame s) (hw : usesWidth i = true → widthValid s.dw = true)
    (hlen : rxs.length = payloadLength (formatOf code) s.dw)
    (hreplies : s.replies = .ok a :: .ok b :: (rxs.map .ok ++ .ok c :: rest)) :
    ∃ t, exec i s = .next t ∧ FrameEnded s t rest ∧ t.dev = d' ∧
      t.dw = (if code = 0x90#8 then widthOfMdr1 (byteOperand (latchedOperand s.wdata i)) else s.dw) ∧
      t.result = some (okResult (formatOf code)
        (assemble (F.received (payloadLength (formatOf code) s.dw)))) := by
  obtain ⟨u, hu, hostU, hAt, hur, hphase⟩ := exec_reference_opened F hi hs hw hreplies
  have hfour : payloadLength (formatOf code) s.dw ≤ 4 := payloadLength_le_four (readsWidth_commandByte hi ▸ hw)
  obtain ⟨v, hv, hostV, hvs, hAtV, hvr⟩ : ∃ v, runSequencer 5 u = runSequencer (5 - rxs.length) v ∧
      KeepsHostSide s v ∧ v.seq = .desel ∧ F.At (payloadLength (formatOf code) s.dw) v ∧
      v.replies = .ok c :: rest := by
    rcases hphase with ⟨hzero, hus⟩ | ⟨hpos, hus, hidx⟩
    · obtain rfl : rxs = [] := List.length_eq_zero_iff.1 (hlen.trans hzero)
      exact ⟨u, rfl, hostU, hus, hzero ▸ hAt, hur⟩
    · have hidx : u.idx.toNat = 0 := by rw [hidx]; rfl
      obtain ⟨v, hv, same, hvs, hAtV, hvr⟩ :=
        runSequencer_reference_payload (.ok c :: rest) (5 - rxs.length) rxs u (hidx ▸ hAt) hus hfour
          (by rintro rfl; exact hpos hlen.symm) (by omega) hur
      rw [show rxs.length + (5 - rxs.length) = 5 by omega] at hv
      exact ⟨v, hv, ⟨same.inbox.trans hostU.inbox, same.wdata.trans hostU.wdata,
        same.lextOut.trans hostU.lextOut, same.world.trans hostU.world⟩, hvs, hAtV, hvr⟩
  obtain ⟨t, ht, hts, hdw, hresult, hlext, hinbox, hwdata, hworld, htr, -, hline, -, hdev⟩ :=
    tick_desel_ok hvs hvr
  refine ⟨t, ?_, ⟨hts, ⟨hinbox.trans hostV.inbox, hwdata.trans hostV.wdata, hlext.trans hostV.lextOut,
    hworld.trans hostV.world⟩, hline, htr⟩, ?_, ?_, ?_⟩
  · rw [hu, hv, show 5 - rxs.length = 4 - rxs.length + 1 by omega, runSequencer_ended (by simp [hvs]) ht hts]
  · rw [hdev hAtV.attached, hAtV.dev, F.closes]
  · rw [hdw, hAtV.opr, hAtV.wdr, hAtV.dw]
  · rw [hresult, hAtV.opr]
    cases hread : isRead (formatOf code) with
    | true => rw [hAtV.acc hread]
    | false => exact congrArg some (okResult_of_not_isRead hread _ _)

end Sys2Proof.Machine
end

section
/-!
PROOFS. The frames of the reference peripheral, by the format of the operation (20_memory R73 to R76).
-/

namespace Sys2Proof.Machine

theorem formatOf_of_rowOf {code : Byte} {row : OpRow} (h : rowOf code = some row) :
    formatOf code = row.format := by simp [formatOf, h]

/-- What a read returns does not depend on the place in the frame. -/
@[simp] theorem Device.readByte_frame (d : Device) (f : DeviceFrame) (r : PReg) (m : Nat) (rx : Byte) :
    ({ d with frame := f } : Device).readByte r m rx = d.readByte r m rx := by cases r <;> rfl

/-- A frame without payload: the command byte makes `e` of the peripheral. -/
def commandFrame {d : Device} {code : Byte} (e : Device) (dw : Width) (wdr : Word)
    (hformat : formatOf code = .commandOnly)
    (hcommand : ∀ k rx, (({ d with frame := .command } : Device).exchange k code rx).2 =
      { e with frame := .payload code 0 }) :
    ReferenceFrame d { e with frame := .closed } code dw wdr where
  place := fun _ => { e with frame := .payload code 0 }
  byte := fun _ => 0
  opens := hcommand
  moves := fun m hm => by simp [hformat, payloadLength] at hm
  returns := fun hread => by simp [hformat, isRead] at hread
  closes := Device.deselect_payload rfl (by simp [hformat])

/-- The frame of a read: the bytes are the register's and no register changes (20_memory R74). -/
def readFrame {d : Device} {code : Byte} {row : OpRow} {dw : Width} (wdr : Word) (byte : Nat → Byte)
    (hrow : rowOf code = some row) (haction : row.action = .read) (hwrite : row.format ≠ .writeWord)
    (hbyte : ∀ m < payloadLength row.format dw, ∀ rx, d.readByte row.reg m rx = byte m) :
    ReferenceFrame d { d with frame := .closed } code dw wdr where
  place := fun m => { d with frame := .payload code m }
  byte := byte
  opens := fun k rx => by rw [Device.exchange_open rfl hrow (.inl haction)]
  moves := fun m _ k rx => by rw [Device.exchange_read rfl hrow haction]
  returns := fun _ m hm k tx rx => by
    rw [formatOf_of_rowOf hrow] at hm
    rw [Device.exchange_read rfl hrow haction, Device.readByte_frame, hbyte m hm]
  closes := Device.deselect_payload rfl fun h => absurd (formatOf_of_rowOf hrow ▸ h) hwrite

end Sys2Proof.Machine
end

section
/-!
PROOFS. What `WR_DTR` leaves in the data register, byte by byte (20_memory R75).
-/

namespace Sys2Proof.Machine

/-- `DTR` after the first `m` of `w` payload bytes of `WR_DTR v`, byte 0 having zeroed the rest. -/
def storedBytes (v : Word) (w : Nat) : Nat → Word
  | 0 => 0
  | m + 1 => putByte (storedBytes v w m) w m (txByte v w m)

theorem storedBytes_getLsbD (v : Word) {w m j : Nat} (hw : w ≤ 4) (hm : m ≤ w) (hj : j < 32) :
    (storedBytes v w m).getLsbD j = (decide (8 * (w - m) ≤ j ∧ j < 8 * w) && v.getLsbD j) := by
  induction m with
  | zero =>
    have hout : ¬ (8 * (w - 0) ≤ j ∧ j < 8 * w) := by omega
    rw [decide_eq_false hout, Bool.false_and, storedBytes]
    exact BitVec.getLsbD_zero
  | succ m ih =>
    rw [storedBytes, putByte_getLsbD _ _ _ _ _ hj, ih (by omega), txByte_getLsbD]
    split
    · have hin : 8 * (w - (m + 1)) ≤ j ∧ j < 8 * w := by omega
      have hbyte : j - 8 * (w - 1 - m) < 8 := by omega
      rw [show 8 * (w - 1 - m) + (j - 8 * (w - 1 - m)) = j by omega]
      simp only [hin, hbyte, and_self, decide_true]
    · congr 2
      exact propext (by omega)

/-- After all `w` bytes it holds the low `8 * w` bits of `v` and zeros above. -/
theorem storedBytes_self (v : Word) {w : Nat} (hw : w ≤ 4) :
    storedBytes v w w = BitVec.ofNat 32 (v.toNat % 2 ^ (8 * w)) := by
  apply BitVec.eq_of_getLsbD_eq
  intro j hj
  rw [storedBytes_getLsbD v hw (Nat.le_refl w) hj, BitVec.getLsbD_ofNat, Nat.testBit_mod_two_pow]
  simp [hj, BitVec.getLsbD]

/-- A payload byte within the width replaces its byte of `DTR`; byte 0 zeroes the rest. -/
theorem Device.writeByte_dtr {d : Device} {m : Nat} (hm : m < d.width) (k : Nat) (tx : Byte) :
    d.writeByte k .dtr m tx = { d with dtr := putByte (if m = 0 then 0 else d.dtr) d.width m tx } := by
  simp [Device.writeByte, hm]

/-! ### The frames of the writes -/

/-- The frame of a mode register write: its one byte makes `e` of the peripheral. -/
def writeByteFrame {d : Device} {code : Byte} {row : OpRow} (e : Device) (dw : Width) (wdr : Word)
    (hrow : rowOf code = some row) (haction : row.action = .write) (hformat : row.format = .writeByte)
    (hwrite : ∀ k, ({ d with frame := .payload code 0 } : Device).writeByte k row.reg 0 (txByte wdr 1 0) =
      { e with frame := .payload code 0 }) :
    ReferenceFrame d { e with frame := .closed } code dw wdr where
  place := fun m => if m = 0 then { d with frame := .payload code 0 } else { e with frame := .payload code 1 }
  byte := fun _ => 0
  opens := fun k rx => by rw [Device.exchange_open rfl hrow (.inr haction)]; rfl
  moves := fun m hm k rx => by
    have hcode : formatOf code = .writeByte := (formatOf_of_rowOf hrow).trans hformat
    rw [hcode] at hm
    obtain rfl : m = 0 := Nat.lt_one_iff.1 hm
    rw [hcode, if_pos rfl, Device.exchange_write rfl hrow haction]
    simp only [payloadByte, isRead, payloadLength, Bool.false_eq_true, if_false, hwrite]
    rfl
  returns := fun hread => by simp [formatOf_of_rowOf hrow, hformat, isRead] at hread
  closes := by
    rw [formatOf_of_rowOf hrow, hformat]
    exact Device.deselect_payload rfl (by simp [formatOf_of_rowOf hrow, hformat])

/-- The peripheral in the frame of `WR_DTR v`, before payload byte `m`. -/
def dtrPlace (d : Device) (v : Word) (m : Nat) : Device :=
  { d with dtr := if m = 0 then d.dtr else storedBytes v d.width m, frame := .payload 0x98#8 m }

theorem dtrPlace_writeByte (d : Device) (v : Word) {m : Nat} (hm : m < d.width) (k : Nat) :
    { (dtrPlace d v m).writeByte k .dtr m (txByte v d.width m) with frame := .payload 0x98#8 (m + 1) } =
      dtrPlace d v (m + 1) := by
  have hstored : (if m = 0 then 0 else (dtrPlace d v m).dtr) = storedBytes v d.width m := by
    cases m <;> simp [dtrPlace, storedBytes]
  rw [Device.writeByte_dtr (d := dtrPlace d v m) hm, hstored]
  rfl

/-- The frame of `WR_DTR v` at agreeing widths (20_memory R75). -/
def writeDtrFrame {d : Device} {dw : Width} (v : Word) (hwidth : dw.toNat = d.width) :
    ReferenceFrame d { d with dtr := BitVec.ofNat 32 (v.toNat % 2 ^ (8 * dw.toNat)), frame := .closed }
      0x98#8 dw v where
  place := dtrPlace d v
  byte := fun _ => 0
  opens := fun k rx => by
    rw [Device.exchange_open (row := ⟨0x98#8, .write, .dtr, .writeWord⟩) rfl rfl (.inr rfl)]
    rfl
  moves := fun m hm k rx => by
    have hm : m < d.width := hwidth ▸ hm
    have hbyte : payloadByte (formatOf 0x98#8) dw v m = txByte v d.width m := by
      rw [← hwidth]; rfl
    rw [hbyte, Device.exchange_write (row := ⟨0x98#8, .write, .dtr, .writeWord⟩) rfl rfl rfl]
    exact dtrPlace_writeByte d v hm k
  returns := fun hread => by cases hread
  closes := fun k => by
    obtain ⟨hpos, hfour⟩ := d.width_bounds
    have hlen : payloadLength (formatOf 0x98#8) dw = d.width := hwidth
    rw [hlen, Device.deselect_payload (d := dtrPlace d v d.width) rfl fun _ => Nat.le_refl _, hwidth,
      ← storedBytes_self v hfour]
    simp [dtrPlace, Nat.ne_of_gt hpos]

end Sys2Proof.Machine
end

section
/-!
PROOFS. The operations on the reference peripheral (20_memory R73 to R77).
-/

namespace Sys2Proof.Machine

/-- A clear or a load attached to the reference peripheral: what the command byte makes of it, and `DW` as it was. -/
theorem exec_command_reference {i : Instr} {code a b c : Byte} {s : State} {rest : List Reply} (e : Device)
    (hi : commandByte i = some code) (hformat : formatOf code = .commandOnly) (hs : ReadyForFrame s)
    (hcommand : ∀ k rx, (({ s.dev with frame := .command } : Device).exchange k code rx).2 =
      { e with frame := .payload code 0 })
    (hreplies : s.replies = .ok a :: .ok b :: .ok c :: rest) :
    ∃ t, exec i s = .next t ∧ FrameEnded s t rest ∧ t.dev = { e with frame := .closed } ∧ t.dw = s.dw := by
  have huses : usesWidth i = false := by rw [← readsWidth_commandByte hi, hformat]; rfl
  obtain ⟨t, ht, hend, hdev, hdw, -⟩ :=
    exec_reference (rxs := []) (commandFrame e s.dw (latchedOperand s.wdata i) hformat hcommand) hi hs
      (by simp [huses]) (by rw [hformat]; rfl) hreplies
  refine ⟨t, ht, hend, hdev, hdw.trans (if_neg ?_)⟩
  rintro rfl
  cases hformat

/-- A clear on the reference peripheral (20_memory R73). -/
theorem exec_clear_reference {i : Instr} {code a b c : Byte} {row : OpRow} {s : State} {rest : List Reply}
    (hi : commandByte i = some code) (hrow : rowOf code = some row) (haction : row.action = .clear)
    (hformat : row.format = .commandOnly) (hs : ReadyForFrame s)
    (hreplies : s.replies = .ok a :: .ok b :: .ok c :: rest) :
    ∃ t, exec i s = .next t ∧ FrameEnded s t rest ∧ t.dev = { s.dev.clear row.reg with frame := .closed } ∧
      t.dw = s.dw := by
  refine exec_command_reference _ hi ((formatOf_of_rowOf hrow).trans hformat) hs (fun k rx => ?_) hreplies
  rw [Device.exchange_clear rfl hrow haction]
  cases row.reg <;> rfl

/-- A load on the reference peripheral (20_memory R76). -/
theorem exec_load_reference {i : Instr} {code a b c : Byte} {row : OpRow} {s : State} {rest : List Reply}
    (hi : commandByte i = some code) (hrow : rowOf code = some row) (haction : row.action = .load)
    (hformat : row.format = .commandOnly) (hs : ReadyForFrame s)
    (hreplies : s.replies = .ok a :: .ok b :: .ok c :: rest) :
    ∃ t, exec i s = .next t ∧ FrameEnded s t rest ∧ t.dev = { s.dev.load row.reg with frame := .closed } ∧
      t.dw = s.dw := by
  refine exec_command_reference _ hi ((formatOf_of_rowOf hrow).trans hformat) hs (fun k rx => ?_) hreplies
  rw [Device.exchange_load rfl hrow haction]
  cases row.reg <;> rfl

/-- The peripheral's width is that of its Mode Register 1 (20_memory R71). -/
theorem Device.width_of_mdr1 {d : Device} {value : Byte} (h : d.mdr1 = value) :
    d.width = 4 - (value &&& 0x03#8).toNat := by rw [Device.width, h]

/-- Settles O43, the four clears being one lemma at their rows of the opcode table. -/
theorem clearsResetTheirRegister : Obligations.ClearsResetTheirRegister := by
  intro s a b c rest hidle hworld hline hreplies
  have hs : ReadyForFrame s := ⟨hidle, hworld, hline⟩
  refine ⟨?_, ?_, ?_, ?_⟩
  · obtain ⟨t, ht, -, hdev, -⟩ := exec_clear_reference (i := .clrMdr0) rfl rfl rfl rfl hs hreplies
    exact ⟨t, ht, hdev⟩
  · obtain ⟨t, ht, -, hdev, hdw⟩ := exec_clear_reference (i := .clrMdr1) rfl rfl rfl rfl hs hreplies
    exact ⟨t, ht, hdev, Device.width_of_mdr1 (value := 0) (congrArg Device.mdr1 hdev), hdw⟩
  · obtain ⟨t, ht, -, hdev, -⟩ := exec_clear_reference (i := .clrCntr) rfl rfl rfl rfl hs hreplies
    exact ⟨t, ht, hdev⟩
  · obtain ⟨t, ht, -, hdev, -⟩ := exec_clear_reference (i := .clrStr) rfl rfl rfl rfl hs hreplies
    exact ⟨t, ht, hdev⟩

/-- Settles O44. -/
theorem loadsCopyRegisters : Obligations.LoadsCopyRegisters := by
  intro s a b c rest hidle hworld hline hreplies
  have hs : ReadyForFrame s := ⟨hidle, hworld, hline⟩
  constructor
  · obtain ⟨t, ht, -, hdev, -⟩ := exec_load_reference (i := .loadCntr) rfl rfl rfl rfl hs hreplies
    exact ⟨t, ht, hdev⟩
  · obtain ⟨t, ht, -, hdev, -⟩ := exec_load_reference (i := .loadOtr) rfl rfl rfl rfl hs hreplies
    exact ⟨t, ht, hdev⟩

theorem widthOfMdr1_toNat (value : Byte) : (widthOfMdr1 value).toNat = 4 - (value &&& 0x03#8).toNat := by
  rw [widthOfMdr1, BitVec.toNat_ofNat]
  exact Nat.mod_eq_of_lt (by omega)

/-- A mode register write on the reference peripheral, `e` being what its one byte makes of it (20_memory R75). -/
theorem exec_byte_write_reference {i : Instr} {code value a b r c : Byte} {row : OpRow} {s : State}
    {rest : List Reply} (e : Device) (hi : commandByte i = some code) (hrow : rowOf code = some row)
    (haction : row.action = .write) (hformat : row.format = .writeByte)
    (hoperand : latchedOperand s.wdata i = withByteOperand s.wdata value)
    (hwrite : ∀ k, ({ s.dev with frame := .payload code 0 } : Device).writeByte k row.reg 0 value =
      { e with frame := .payload code 0 })
    (hs : ReadyForFrame s) (hreplies : s.replies = .ok a :: .ok b :: .ok r :: .ok c :: rest) :
    ∃ t, exec i s = .next t ∧ t.dev = { e with frame := .closed } ∧
      t.dw = if code = 0x90#8 then widthOfMdr1 value else s.dw := by
  have hcode : formatOf code = .writeByte := (formatOf_of_rowOf hrow).trans hformat
  have huses : usesWidth i = false := by rw [← readsWidth_commandByte hi, hcode]; rfl
  have F := writeByteFrame e s.dw (latchedOperand s.wdata i) hrow haction hformat
    (by rw [hoperand, txByte_withByteOperand]; exact hwrite)
  obtain ⟨t, ht, -, hdev, hdw, -⟩ :=
    exec_reference (rxs := [r]) F hi hs (by simp [huses]) (by rw [hcode]; rfl) hreplies
  rw [hoperand, byteOperand_withByteOperand] at hdw
  exact ⟨t, ht, hdev, hdw⟩

/-- Settles O45. -/
theorem modeWritesReplaceTheirRegister : Obligations.ModeWritesReplaceTheirRegister := by
  intro s value a b r c rest hidle hworld hline hreplies
  have hs : ReadyForFrame s := ⟨hidle, hworld, hline⟩
  constructor
  · obtain ⟨t, ht, hdev, -⟩ := exec_byte_write_reference (i := .wrMdr0 value) { s.dev with mdr0 := value }
      rfl rfl rfl rfl rfl (fun _ => rfl) hs hreplies
    exact ⟨t, ht, hdev⟩
  · obtain ⟨t, ht, hdev, hdw⟩ := exec_byte_write_reference (i := .wrMdr1 value) { s.dev with mdr1 := value }
      rfl rfl rfl rfl rfl (fun _ => rfl) hs hreplies
    refine ⟨t, ht, hdev, ?_⟩
    rw [Device.width_of_mdr1 (congrArg Device.mdr1 hdev), hdw, if_pos rfl, widthOfMdr1_toNat]

/-- `WR_DTR` on the reference peripheral at agreeing widths (20_memory R75). -/
theorem exec_wrDtr_reference {s : State} (v : Word) {a b c : Byte} {rxs : List Byte} {rest : List Reply}
    (hs : ReadyForFrame s) (hwidth : s.dw.toNat = s.dev.width) (hlen : rxs.length = s.dw.toNat)
    (hreplies : s.replies = .ok a :: .ok b :: (rxs.map .ok ++ .ok c :: rest)) :
    ∃ t, exec (.wrDtr v) s = .next t ∧ FrameEnded s t rest ∧ t.dw = s.dw ∧ t.result = some .done ∧
      t.dev = { s.dev with dtr := BitVec.ofNat 32 (v.toNat % 2 ^ (8 * s.dw.toNat)), frame := .closed } := by
  have hvalid : widthValid s.dw = true := (widthValid_iff s.dw).2 (hwidth ▸ s.dev.width_bounds)
  obtain ⟨t, ht, hend, hdev, hdw, hresult⟩ :=
    exec_reference (i := .wrDtr v) (code := 0x98#8) (writeDtrFrame v hwidth) rfl hs (fun _ => hvalid) hlen hreplies
  exact ⟨t, ht, hend, hdw, hresult, hdev⟩

/-- Settles O46. -/
theorem writeDtrStoresLowBytes : Obligations.WriteDtrStoresLowBytes := by
  intro s v a b c rxs rest hidle hworld hline hwidth hlen hreplies
  obtain ⟨t, ht, -, -, hresult, hdev⟩ := exec_wrDtr_reference v ⟨hidle, hworld, hline⟩ hwidth hlen hreplies
  exact ⟨t, ht, hresult, hdev⟩

/-- A single-byte read on the reference peripheral (20_memory R74). -/
theorem exec_byte_read_reference {i : Instr} {code value a b c : Byte} {row : OpRow} {s : State}
    {rxs : List Byte} {rest : List Reply} (hi : commandByte i = some code) (hrow : rowOf code = some row)
    (haction : row.action = .read) (hformat : row.format = .readByte)
    (hbyte : ∀ rx, s.dev.readByte row.reg 0 rx = value) (hs : ReadyForFrame s) (hlen : rxs.length = 1)
    (hreplies : s.replies = .ok a :: .ok b :: (rxs.map .ok ++ .ok c :: rest)) :
    ∃ t, exec i s = .next t ∧ t.result = some (.byte value) ∧ t.dev = { s.dev with frame := .closed } := by
  have hcode : formatOf code = .readByte := (formatOf_of_rowOf hrow).trans hformat
  have huses : usesWidth i = false := by rw [← readsWidth_commandByte hi, hcode]; rfl
  obtain ⟨t, ht, -, hdev, -, hresult⟩ := exec_reference
    (readFrame (dw := s.dw) (latchedOperand s.wdata i) (fun _ => value) hrow haction (by simp [hformat])
      fun m hm => by
        rw [hformat] at hm
        obtain rfl : m = 0 := Nat.lt_one_iff.1 hm
        exact hbyte)
    hi hs (by simp [huses]) (by rw [hcode]; exact hlen) hreplies
  have hvalue : (assemble [value]).setWidth 8 = value := by
    simpa [txByte] using txByte_assemble [value] (by simp) 0 (by simp)
  rw [hcode] at hresult
  exact ⟨t, ht, hresult.trans (congrArg (fun x => some (Result.byte x)) hvalue), hdev⟩

/-- A multi-byte read on the reference peripheral returns the leading bytes of the register (20_memory R53, R74). -/
theorem exec_word_read_reference {i : Instr} {code a b c : Byte} {value : Word} {row : OpRow} {s : State}
    {rxs : List Byte} {rest : List Reply} (hi : commandByte i = some code) (hrow : rowOf code = some row)
    (haction : row.action = .read) (hformat : row.format = .readWord)
    (hbyte : ∀ m < s.dev.width, ∀ rx, s.dev.readByte row.reg m rx = txByte value s.dev.width m)
    (hs : ReadyForFrame s) (hpos : 1 ≤ s.dw.toNat) (hwidth : s.dw.toNat ≤ s.dev.width)
    (hlen : rxs.length = s.dw.toNat)
    (hreplies : s.replies = .ok a :: .ok b :: (rxs.map .ok ++ .ok c :: rest)) :
    ∃ t x, exec i s = .next t ∧ FrameEnded s t rest ∧ t.dw = s.dw ∧ t.result = some (.word x) ∧
      x.toNat = value.toNat % 2 ^ (8 * s.dev.width) / 2 ^ (8 * (s.dev.width - s.dw.toNat)) ∧
      t.dev = { s.dev with frame := .closed } := by
  have hcode : formatOf code = .readWord := (formatOf_of_rowOf hrow).trans hformat
  have hfour := s.dev.width_bounds.2
  have hvalid : widthValid s.dw = true := (widthValid_iff s.dw).2 ⟨hpos, hwidth.trans hfour⟩
  obtain ⟨t, ht, hend, hdev, hdw, hresult⟩ := exec_reference
    (readFrame (dw := s.dw) (latchedOperand s.wdata i) (txByte value s.dev.width) hrow haction (by simp [hformat])
      fun m hm => by
        rw [hformat] at hm
        exact hbyte m (hm.trans_le hwidth))
    hi hs (fun _ => hvalid) (by rw [hcode]; exact hlen) hreplies
  rw [hcode] at hresult
  refine ⟨t, _, ht, hend, hdw.trans (if_neg ?_), hresult, assemble_leadingBytes_toNat value hfour hwidth, hdev⟩
  rintro rfl
  cases hcode

/-- Within the peripheral's width `CNTR` is returned byte by byte (20_memory R74). -/
theorem Device.readByte_cntr (d : Device) : ∀ m < d.width, ∀ rx, d.readByte .cntr m rx = txByte d.cntr d.width m :=
  fun _ hm _ => if_pos hm

/-- Within the peripheral's width `OTR` is returned byte by byte (20_memory R74). -/
theorem Device.readByte_otr (d : Device) : ∀ m < d.width, ∀ rx, d.readByte .otr m rx = txByte d.otr d.width m :=
  fun _ hm _ => if_pos hm

/-- Settles O47. -/
theorem readsReturnTheRegister : Obligations.ReadsReturnTheRegister := by
  intro s a b c rxs rest hidle hworld hline
  have hs : ReadyForFrame s := ⟨hidle, hworld, hline⟩
  constructor
  · intro i value hmem hlen hreplies
    simp only [List.mem_cons, List.not_mem_nil, or_false, Prod.mk.injEq] at hmem
    rcases hmem with ⟨rfl, rfl⟩ | ⟨rfl, rfl⟩ | ⟨rfl, rfl⟩
    · exact exec_byte_read_reference rfl rfl rfl rfl (fun _ => rfl) hs hlen hreplies
    · exact exec_byte_read_reference rfl rfl rfl rfl (fun _ => rfl) hs hlen hreplies
    · exact exec_byte_read_reference rfl rfl rfl rfl (fun _ => rfl) hs hlen hreplies
  · intro i value hmem hpos hwidth hlen hreplies
    simp only [List.mem_cons, List.not_mem_nil, or_false, Prod.mk.injEq] at hmem
    rcases hmem with ⟨rfl, rfl⟩ | ⟨rfl, rfl⟩
    · obtain ⟨t, x, ht, -, -, hresult, hx, hdev⟩ := exec_word_read_reference (i := .rdCntr) rfl rfl rfl rfl
        s.dev.readByte_cntr hs hpos hwidth hlen hreplies
      exact ⟨t, x, ht, hresult, hx, hdev⟩
    · obtain ⟨t, x, ht, -, -, hresult, hx, hdev⟩ := exec_word_read_reference (i := .rdOtr) rfl rfl rfl rfl
        s.dev.readByte_otr hs hpos hwidth hlen hreplies
      exact ⟨t, x, ht, hresult, hx, hdev⟩

/-! ### The round trip -/

/-- A step that answers a next state is the first of a run. -/
theorem run_succ_of_next (M : Host.Core) {s t : M.State} (h : M.step s = .next t) (k : Nat) :
    M.run (k + 1) s = M.run k t := by simp [Host.Core.run, h]

/-- Answers for a whole frame with `n` payload bytes, cut from a script of answers. -/
theorem exists_frame_answers {n : Nat} {oks : List Byte} (h : n + 3 ≤ oks.length) :
    ∃ a b c rxs rest, oks = a :: b :: (rxs ++ c :: rest) ∧ rxs.length = n ∧ rest.length + (n + 3) = oks.length := by
  match oks, h with
  | a :: b :: oks, h =>
    simp only [List.length_cons] at h
    have hlt : n < oks.length := by omega
    refine ⟨a, b, oks[n], oks.take n, oks.drop (n + 1), ?_, by simp; omega, by simp; omega⟩
    rw [List.cons_getElem_drop_succ, List.take_append_drop]

theorem ReadyForFrame.present {s : State} (h : ReadyForFrame s) (i : HostInput) (rest : List HostInput) :
    ReadyForFrame (s.present i rest) := ⟨by simpa using h.idle, by simpa using h.attached, by simpa using h.line⟩

/-- What the next step finds after a frame on the reference peripheral: an engine ready for the next frame, with the
rest of the queue and of the answers, at the same `DW`. -/
structure StepEnded (s t : State) (inbox : List HostInput) (replies : List Reply) : Prop where
  ready : ReadyForFrame t
  inbox : t.inbox = inbox
  replies : t.replies = replies
  dw : t.dw = s.dw

theorem FrameEnded.stepEnded {s t : State} {x : HostInput} {inbox : List HostInput} {replies : List Reply}
    (h : FrameEnded (s.present x inbox) t replies) (hs : ReadyForFrame s) (hdw : t.dw = (s.present x inbox).dw) :
    StepEnded s t inbox replies :=
  ⟨h.ready (hs.present x inbox), h.host.inbox.trans (by simp), h.replies, hdw.trans (by simp)⟩

section
variable {s : State} {inbox : List HostInput} {a b c : Byte} {rxs : List Byte} {rest : List Reply}

/-- A step that takes `WR_DTR v` (20_memory R75). -/
theorem step_wrDtr_reference {v : Word} (hs : ReadyForFrame s) (hin : s.inbox = encode (.wrDtr v) :: inbox)
    (hwidth : s.dw.toNat = s.dev.width) (hlen : rxs.length = s.dw.toNat)
    (hreplies : s.replies = .ok a :: .ok b :: (rxs.map .ok ++ .ok c :: rest)) :
    ∃ t, step s = .next t ∧ StepEnded s t inbox rest ∧
      t.dev = { s.dev with dtr := BitVec.ofNat 32 (v.toNat % 2 ^ (8 * s.dw.toNat)), frame := .closed } := by
  obtain ⟨t, ht, hend, hdw, -, hdev⟩ := exec_wrDtr_reference v (hs.present (encode (.wrDtr v)) inbox)
    (by simpa using hwidth) (by simpa using hlen) ((State.present_replies ..).trans hreplies)
  rw [State.present_dw, State.present_dev] at hdev
  exact ⟨t, (step_of_operation hin hs.idle rfl).trans ht, hend.stepEnded hs hdw, hdev⟩

/-- A step that takes `LOAD_CNTR` (20_memory R76). -/
theorem step_loadCntr_reference (hs : ReadyForFrame s) (hin : s.inbox = encode .loadCntr :: inbox)
    (hreplies : s.replies = .ok a :: .ok b :: .ok c :: rest) :
    ∃ t, step s = .next t ∧ StepEnded s t inbox rest ∧
      t.dev = { s.dev with cntr := s.dev.dtr, frame := .closed } := by
  obtain ⟨t, ht, hend, hdev, hdw⟩ := exec_load_reference (i := .loadCntr) rfl rfl rfl rfl
    (hs.present (encode .loadCntr) inbox) ((State.present_replies ..).trans hreplies)
  rw [State.present_dev] at hdev
  exact ⟨t, (step_of_operation hin hs.idle rfl).trans ht, hend.stepEnded hs hdw, hdev⟩

/-- A step that takes `RD_CNTR` at agreeing widths (20_memory R74). -/
theorem step_rdCntr_reference (hs : ReadyForFrame s) (hin : s.inbox = encode .rdCntr :: inbox)
    (hwidth : s.dw.toNat = s.dev.width) (hlen : rxs.length = s.dw.toNat)
    (hreplies : s.replies = .ok a :: .ok b :: (rxs.map .ok ++ .ok c :: rest)) :
    ∃ t x, step s = .next t ∧ StepEnded s t inbox rest ∧ t.result = some (.word x) ∧
      x.toNat = s.dev.cntr.toNat % 2 ^ (8 * s.dw.toNat) := by
  have hpos := s.dev.width_bounds.1
  obtain ⟨t, x, ht, hend, hdw, hresult, hx, -⟩ := exec_word_read_reference (i := .rdCntr) rfl rfl rfl rfl
    (Device.readByte_cntr _) (hs.present (encode .rdCntr) inbox) (by simp; omega) (by simp; omega)
    (by simpa using hlen) ((State.present_replies ..).trans hreplies)
  rw [State.present_dw, State.present_dev, ← hwidth, Nat.sub_self, Nat.mul_zero, Nat.pow_zero, Nat.div_one] at hx
  exact ⟨t, x, (step_of_operation hin hs.idle rfl).trans ht, hend.stepEnded hs hdw, hresult, hx⟩

end

/-- Settles O48: three steps, each a frame of the reference peripheral, hand the low bytes on from the operand to
`DTR`, to `CNTR` and to the result. -/
theorem writeLoadReadRoundTrip : Obligations.WriteLoadReadRoundTrip := by
  intro s v rest oks more hidle hworld hline hwidth hinbox hreplies hlen
  obtain ⟨a₁, b₁, c₁, rxs₁, oks₁, rfl, hrxs₁, hoks₁⟩ :=
    exists_frame_answers (n := s.dw.toNat) (oks := oks) (by omega)
  obtain ⟨a₂, b₂, c₂, rxs₂, oks₂, rfl, hrxs₂, hoks₂⟩ := exists_frame_answers (n := 0) (oks := oks₁) (by omega)
  obtain ⟨a₃, b₃, c₃, rxs₃, oks₃, rfl, hrxs₃, -⟩ :=
    exists_frame_answers (n := s.dw.toNat) (oks := oks₂) (by omega)
  obtain rfl : rxs₂ = [] := List.length_eq_zero_iff.1 hrxs₂
  simp only [List.map_cons, List.map_append, List.cons_append, List.append_assoc, List.nil_append] at hreplies
  obtain ⟨t₁, hstep₁, hend₁, hdev₁⟩ :=
    step_wrDtr_reference ⟨hidle, hworld, hline⟩ hinbox hwidth hrxs₁ hreplies
  obtain ⟨t₂, hstep₂, hend₂, hdev₂⟩ := step_loadCntr_reference hend₁.ready hend₁.inbox hend₁.replies
  have hdw₂ : t₂.dw = s.dw := hend₂.dw.trans hend₁.dw
  have hwidth₂ : t₂.dev.width = s.dev.width := by rw [hdev₂, hdev₁]; rfl
  have hcntr₂ : t₂.dev.cntr = BitVec.ofNat 32 (v.toNat % 2 ^ (8 * s.dw.toNat)) := by rw [hdev₂, hdev₁]
  obtain ⟨t₃, x, hstep₃, hend₃, hresult, hx⟩ := step_rdCntr_reference hend₂.ready hend₂.inbox
    (by rw [hdw₂, hwidth₂]; exact hwidth) (by rw [hdw₂]; exact hrxs₃) hend₂.replies
  have hrun : Host.Core.run core 3 s = .next t₃ :=
    (run_succ_of_next core hstep₁ 2).trans
      ((run_succ_of_next core hstep₂ 1).trans (run_succ_of_next core hstep₃ 0))
  refine ⟨t₃, hrun, hend₃.ready.idle, hend₃.inbox, hend₃.dw.trans hdw₂, ?_⟩
  have hvalue : x = BitVec.ofNat 32 (v.toNat % 2 ^ (8 * s.dw.toNat)) := by
    have hsmall : v.toNat % 2 ^ (8 * s.dw.toNat) < 2 ^ 32 := (Nat.mod_le _ _).trans_lt v.isLt
    apply BitVec.eq_of_toNat_eq
    rw [hx, hcntr₂, hdw₂, BitVec.toNat_ofNat, Nat.mod_eq_of_lt hsmall, Nat.mod_mod]
  rw [hresult, hvalue]

end Sys2Proof.Machine
end

section
/-!
PROOFS. Decoding and encoding (30_encoding R80 to R83): the select code and the operand's bits name the operation.
-/

namespace Sys2Proof.Machine

/-- A select code and write data that carry an operation's command byte and operand decode to it: the converse of
`decodeRequest_ok` (30_encoding R81, R82). -/
theorem decodeRequest_of_operand {i : Instr} {op : Byte} {w : Word} (hi : commandByte i = some op)
    (hbyte : ∀ v, i = .wrMdr0 v ∨ i = .wrMdr1 v → v = w.setWidth 8) (hword : ∀ v, i = .wrDtr v → v = w) :
    decodeRequest op w = .ok i := by
  cases i with
  | wrMdr0 v => cases hi; cases hbyte v (.inl rfl); rfl
  | wrMdr1 v => cases hi; cases hbyte v (.inr rfl); rfl
  | wrDtr v => cases hi; cases hword v rfl; rfl
  | lext v => cases hi
  | _ => cases hi; rfl

/-- The request that encodes an operation carries its command byte and its operand (30_encoding R82). -/
theorem encode_request {i : Instr} {op : Byte} {w : Word} (h : encode i = .request op w) :
    commandByte i = some op ∧ (∀ v, i = .wrMdr0 v ∨ i = .wrMdr1 v → w.setWidth 8 = v) ∧
      ∀ v, i = .wrDtr v → w = v := by
  have hbyte (v : Byte) : (v.setWidth 32).setWidth 8 = v := by simp
  refine ⟨by rw [commandByte, h], ?_, ?_⟩
  · rintro v (rfl | rfl) <;> cases h <;> exact hbyte v
  · rintro v rfl
    cases h
    rfl

/-- Settles O6: the encoding carries the operand, and agreement in the operand's bits hands it on to any other write
data. -/
theorem decodeOfEncode : Obligations.DecodeOfEncode := by
  intro i _
  have agrees (op : Byte) (w w' : Word) (he : encode i = .request op w)
      (hlow : (∃ v, i = .wrMdr0 v ∨ i = .wrMdr1 v) → w'.setWidth 8 = w.setWidth 8)
      (hall : (∃ v, i = .wrDtr v) → w' = w) : decode (.request op w') = .ok i := by
    obtain ⟨hi, hbyte, hword⟩ := encode_request he
    exact decodeRequest_of_operand hi (fun v hv => ((hlow ⟨v, hv⟩).trans (hbyte v hv)).symm)
      fun v hv => ((hall ⟨v, hv⟩).trans (hword v hv)).symm
  refine ⟨?_, agrees⟩
  cases he : encode i with
  | request op w => exact agrees op w w he (fun _ => rfl) fun _ => rfl
  | lext v => cases i <;> cases he; rfl
  | reset | quiet => cases i <;> cases he

/-- Settles O8. -/
theorem requestDecodesBySelectCode : Obligations.RequestDecodesBySelectCode := fun _ wdata =>
  ⟨fun h => decodeRequest_listed h wdata, fun h => decodeRequest_unlisted h wdata⟩

/-- Settles O9: a table word shorter than 32 bits is a request with write data 0. -/
theorem tableWordsDecode : Obligations.TableWordsDecode := by
  refine ⟨?_, ?_, ?_⟩ <;> decide

/-- Settles O10, row by row of the table. -/
theorem commandBytesSplit : Obligations.CommandBytesSplit := by
  refine ⟨by decide, rfl, ?_⟩
  decide

/-! ### A step by the action presented -/

/-- Settles O11: what decodes is a request, taken in `IDLE`, or a word on the `LEXT` port. -/
theorem stepRunsDecoded : Obligations.StepRunsDecoded := by
  intro s x rest i hin hd _ hready
  cases x with
  | request op w =>
    have hs : s.seq = .idle := hready.resolve_right fun ⟨_, hv⟩ => by cases hv
    exact step_of_operation hin hs hd
  | lext v =>
    cases hd
    exact step_of_lext hin
  | reset | quiet => cases hd

/-- Settles O12. -/
theorem unlistedSelectCodeIsRefused : Obligations.UnlistedSelectCodeIsRefused :=
  fun _ _ wdata _ hs hin hop => step_of_illegal hin hs (decodeRequest_unlisted hop wdata)

/-- Settles O15. -/
theorem lextCompletes : Obligations.LextCompletes := fun _ _ => rfl

theorem KeepsHostSide.refl (s : State) : KeepsHostSide s s := ⟨rfl, rfl, rfl, rfl⟩

theorem KeepsHostSide.trans {s t u : State} (h : KeepsHostSide s t) (k : KeepsHostSide t u) :
    KeepsHostSide s u :=
  ⟨k.inbox.trans h.inbox, k.wdata.trans h.wdata, k.lextOut.trans h.lextOut, k.world.trans h.world⟩

theorem SameOperation.hostSide {s t : State} (h : SameOperation s t) : KeepsHostSide s t :=
  ⟨h.inbox, h.wdata, h.lextOut, h.world⟩

/-- A run of the sequencer does not touch the host's side (30_encoding R96). -/
theorem runSequencer_hostSide (n : Nat) (s : State) : KeepsHostSide s (runSequencer n s) :=
  runSequencer_keeps (P := KeepsHostSide s) (fun _ _ h _ ht => h.trans (tick_row ht).hostSide)
    (fun _ _ h _ ht => h.trans (tick_waiting ht).1.host) n s (.refl s)

/-- Settles O13: the request waits, and the run that goes on does not touch the host's side. -/
theorem busyEngineHoldsRequests : Obligations.BusyEngineHoldsRequests := by
  intro s op wdata rest hs hin
  have hstep : step s = s.resume := step_of_waiting hin (by simp [HostInput.waits, hs])
  refine ⟨hstep, fun t ht => ?_⟩
  cases State.resume_next (hstep.symm.trans ht)
  have hhost := runSequencer_hostSide Config.callLimit s
  exact ⟨hhost.inbox, hhost.wdata⟩

end Sys2Proof.Machine
end

section
/-!
PROOFS. The bytes on the wire (30_encoding R80, R84, R91): the command byte and then the payload of its format.
-/

namespace Sys2Proof.Machine

/-- The payload of a byte write is the operand's byte (20_memory R57). -/
theorem payloadBytes_writeByte (dw : Width) (w : Word) : payloadBytes .writeByte dw w = [byteOperand w] := by
  simp [payloadBytes, payloadLength, payloadByte, isRead, txByte, byteOperand]

/-- An operation sends its command byte and then the payload bytes of its format, made of the operand it latches,
whatever stands on the data lines (30_encoding R84). -/
theorem wireBytes_eq {i : Instr} {code : Byte} (hi : commandByte i = some code) (dw : Width) (wdata : Word) :
    wireBytes dw i = code :: payloadBytes (formatOf code) dw (latchedOperand wdata i) := by
  have byteWrite (value : Byte) :
      payloadBytes .writeByte dw (withByteOperand wdata value) = [value] := by
    rw [payloadBytes_writeByte, byteOperand_withByteOperand]
  cases i with
  | wrMdr0 value => cases hi; exact congrArg _ (byteWrite value).symm
  | wrMdr1 value => cases hi; exact congrArg _ (byteWrite value).symm
  | wrDtr v => cases hi; exact congrArg _ (payloadBytes_writeWord dw v).symm
  | rdMdr0 | rdMdr1 | rdStr | rdCntr | rdOtr =>
    cases hi
    rw [payloadBytes_of_isRead]
    all_goals rfl
  | lext v => cases hi
  | clrMdr0 | clrMdr1 | clrCntr | clrStr | loadCntr | loadOtr => cases hi; rfl

/-- The first byte on the wire is the command byte (30_encoding R80). -/
theorem head_wireBytes (dw : Width) (i : Instr) : (wireBytes dw i).head? = commandByte i := by
  cases hi : commandByte i with
  | some code => rw [wireBytes_eq hi dw 0]; rfl
  | none => obtain ⟨v, rfl⟩ := commandByte_eq_none hi; rfl

/-- What an operation latches decodes, under its command byte, to the operation again. -/
theorem decodeRequest_latchedOperand {i : Instr} {code : Byte} (hi : commandByte i = some code) (wdata : Word) :
    decodeRequest code (latchedOperand wdata i) = .ok i := by
  refine decodeRequest_of_operand hi ?_ ?_
  · rintro v (rfl | rfl) <;> exact (byteOperand_withByteOperand wdata v).symm
  · rintro v rfl
    rfl

/-- A byte write's command byte has the format of a byte write. -/
theorem formatOf_byteWrite {i : Instr} {code value : Byte} (hi : commandByte i = some code)
    (hv : i = .wrMdr0 value ∨ i = .wrMdr1 value) : formatOf code = .writeByte := by
  rcases hv with rfl | rfl <;> cases hi <;> rfl

/-- The command byte `0x98` is that of `WR_DTR` alone (30_encoding R82). -/
theorem eq_wrDtr_of_commandByte {i : Instr} (h : commandByte i = some 0x98#8) : ∃ v, i = .wrDtr v := by
  cases i with
  | wrDtr v => exact ⟨v, rfl⟩
  | _ => simp [commandByte, encode] at h

/-- Settles O7: the first byte names the command. Of a `WR_DTR` the payload says the low bits; of any other operation
it says the whole operand, so what the second operation latches decodes to the first. -/
theorem wireBytesNameTheOperation : Obligations.WireBytesNameTheOperation := by
  intro dw i j hw hi hbytes
  obtain ⟨code, hi⟩ := Option.ne_none_iff_exists'.1 hi
  have hj : commandByte j = some code := by rw [← head_wireBytes dw, ← hbytes, head_wireBytes, hi]
  have hpayload : payloadBytes (formatOf code) dw (latchedOperand 0 i) =
      payloadBytes (formatOf code) dw (latchedOperand 0 j) := by
    rw [wireBytes_eq hi dw 0, wireBytes_eq hj dw 0] at hbytes
    exact (List.cons.inj hbytes).2
  by_cases hdtr : ∃ u, i = .wrDtr u
  · obtain ⟨u, rfl⟩ := hdtr
    cases hi
    obtain ⟨v, rfl⟩ := eq_wrDtr_of_commandByte hj
    refine .inr ⟨u, v, rfl, rfl, ?_⟩
    obtain ⟨-, hu, -⟩ := writePayloadIsLowBytes dw u hw
    obtain ⟨-, hv, -⟩ := writePayloadIsLowBytes dw v hw
    rw [← hu, ← hv]
    exact congrArg (fun bytes => (assemble bytes).toNat) hpayload
  · have hdecode : decodeRequest code (latchedOperand 0 j) = .ok i := by
      refine decodeRequest_of_operand hi (fun value hvalue => ?_) fun v hv => absurd ⟨v, hv⟩ hdtr
      rw [formatOf_byteWrite hi hvalue, payloadBytes_writeByte, payloadBytes_writeByte] at hpayload
      have hlatched : byteOperand (latchedOperand 0 i) = value := by
        rcases hvalue with rfl | rfl <;> exact byteOperand_withByteOperand 0 value
      exact hlatched.symm.trans (List.cons.inj hpayload).1
    cases hdecode.symm.trans (decodeRequest_latchedOperand hj 0)
    exact .inl rfl

end Sys2Proof.Machine
end

section
/-!
PROOFS. An operation whose every call is answered ends (30_encoding R90, 60_exceptions R189).
-/

namespace Sys2Proof.Machine

/-- An answer other than silence moves the sequencer, and is all that it takes from the script. -/
theorem tick_takes_one {s : State} {r : Reply} {rest : List Reply} (hs : s.seq ≠ .idle) (hr : r ≠ .silent)
    (h : s.replies = r :: rest) : ∃ t, tick s = .moved t ∧ t.replies = rest := by
  have hscript : s.script (r :: rest) = s := by rw [State.script, ← h]
  obtain ⟨u, hu⟩ := tick_answered (s := s.script [r]) hs hr rfl
  refine ⟨u.script rest, ?_, rfl⟩
  rw [← hscript, tick_script hs, hu]
  rfl

/-- The row that ends an operation delivers its result (30_encoding R96). -/
theorem Row.result {s t : State} (row : Row s t) (ht : t.seq = .idle) : ∃ r, t.result = some r := by
  cases row with
  | completed _ _ _ _ result | notDeselected _ _ _ _ result | aborted _ _ _ _ result => exact ⟨_, result⟩
  | selected _ _ seq | notSelected _ _ seq | commandFailed _ _ seq | dataFailed _ _ seq | commandOnly _ _ _ seq
  | command _ _ _ seq | more _ _ _ _ _ _ seq | last _ _ _ _ _ _ seq => simp [seq] at ht

/-- A run with an answer, not silence, for each call that is left ends the operation with a result, and uses no more
answers than that. -/
theorem runSequencer_answered (n : Nat) : ∀ s : State, s.coherent = true → s.callsLeft ≤ n →
    s.callsLeft ≤ s.replies.length → .silent ∉ s.replies → (s.seq = .idle → ∃ r, s.result = some r) →
    (runSequencer n s).seq = .idle ∧ (∃ r, (runSequencer n s).result = some r) ∧
      s.replies.length ≤ (runSequencer n s).replies.length + s.callsLeft := by
  induction n with
  | zero =>
    intro s _ hn _ _ hresult
    have hs : s.seq = .idle := by
      by_contra hs
      have := State.callsLeft_pos hs
      omega
    exact ⟨hs, hresult hs, Nat.le_add_right _ _⟩
  | succ n ih =>
    intro s h hn hlen hanswered hresult
    by_cases hs : s.seq = .idle
    · rw [runSequencer_idle _ hs]
      exact ⟨hs, hresult hs, Nat.le_add_right _ _⟩
    · obtain ⟨r, rest, hreplies⟩ := List.exists_cons_of_length_pos ((State.callsLeft_pos hs).trans_le hlen)
      rw [hreplies, List.mem_cons, not_or] at hanswered
      obtain ⟨hr, hrest⟩ := hanswered
      obtain ⟨t, ht, htr⟩ := tick_takes_one hs (Ne.symm hr) hreplies
      have row := tick_row ht
      have hlt := row.callsLeft_lt hs h
      rw [hreplies, List.length_cons] at hlen
      obtain ⟨hseq, hres, hused⟩ :=
        ih t (row.coherent hs h) (by omega) (by rw [htr]; omega) (htr ▸ hrest) row.result
      rw [runSequencer_moved hs ht, hreplies, List.length_cons]
      rw [htr] at hused
      exact ⟨hseq, hres, by omega⟩

/-- An accepted operation stands at a position of the sequencer. -/
theorem State.accept_coherent {i : Instr} {code : Byte} {s : State} (hi : commandByte i = some code)
    (hw : readsWidth (formatOf code) = true → widthValid s.dw = true) (w : Word) :
    (s.accept code w).coherent = true :=
  (s.accept code w).coherent_iff.2 ⟨fun _ => ⟨commandByte_listed hi, hw⟩, by simp⟩

/-- Settles O34: refused for its width the operation has made no call; accepted it makes at most the seven of the
longest frame. -/
theorem answeredOperationsEnd : Obligations.AnsweredOperationsEnd := by
  intro i code s hi hs hlen hanswered
  rw [exec_request hi]
  rcases s.request_cases code (latchedOperand s.wdata i) with ⟨hbusy, -⟩ | ⟨-, -, -, heq⟩ | ⟨-, hvalid, heq⟩
  · exact absurd hs hbusy
  · exact ⟨_, _, congrArg Host.Outcome.next heq, hs, rfl, Nat.le_add_right _ _⟩
  · have hc := State.accept_coherent hi hvalid (latchedOperand s.wdata i)
    have hcalls := State.callsLeft_le hc
    obtain ⟨hseq, ⟨r, hresult⟩, hused⟩ :=
      runSequencer_answered Config.callLimit _ hc hcalls (hcalls.trans hlen) hanswered (by simp)
    refine ⟨_, r, congrArg Host.Outcome.next heq, hseq, hresult, hused.trans ?_⟩
    exact Nat.add_le_add_left hcalls _

end Sys2Proof.Machine
end

section
/-!
PROOFS. The events of an operation are one frame, whatever the environment does (30_encoding R84, 60_exceptions R175).
-/

namespace Sys2Proof.Machine

theorem firstSent_append (es fs : List Event) : firstSent (es ++ fs) = (firstSent es).or (firstSent fs) := by
  induction es with
  | nil => rfl
  | cons e es ih => cases e <;> simp [firstSent, ih]

/-- The one event of a row: it takes the frame from the stage of the old phase to that of the new one, it sends the
command byte in `CMD`, and it sends a byte nowhere but in `CMD` and `DATA`. -/
structure Row.Emits (s t : State) (e : Event) : Prop where
  trace : t.trace = s.trace ++ [e]
  stage : Stage.next (.ofPhase s.seq) e = .ofPhase t.seq
  command : s.seq = .cmd → firstSent [e] = some s.opr
  silent : s.seq = .sel ∨ s.seq = .desel ∨ s.seq = .abort → firstSent [e] = none

theorem Row.emits {s t : State} (row : Row s t) : ∃ e, Row.Emits s t e := by
  cases row with
  | selected phase _ seq trace | notSelected phase _ seq _ trace | completed phase _ seq _ _ trace
  | notDeselected phase _ seq _ _ trace =>
    exact ⟨_, trace, by rw [phase, seq]; rfl, by simp [phase], fun _ => rfl⟩
  | commandOnly phase _ _ seq trace | command phase _ _ seq _ _ trace =>
    obtain ⟨rx, trace⟩ := trace
    exact ⟨_, trace, by rw [phase, seq]; rfl, fun _ => rfl, by simp [phase]⟩
  | commandFailed phase _ seq _ trace =>
    exact ⟨_, trace, by rw [phase, seq]; rfl, fun _ => rfl, by simp [phase]⟩
  | more _ _ phase _ _ _ seq _ _ trace | last _ _ phase _ _ _ seq _ trace | dataFailed phase _ seq _ trace =>
    exact ⟨_, trace, by rw [phase, seq]; rfl, by simp [phase], by simp [phase]⟩
  | aborted phase _ seq _ _ trace =>
    rcases trace with trace | trace <;>
      exact ⟨_, trace, by rw [phase, seq]; rfl, by simp [phase], fun _ => rfl⟩

/-- The events `es` of the operation that stood at `s`, as far as it has come at `t`: the part of a frame that lies
between the two phases, with the command byte sent first (30_encoding R84, 60_exceptions R175). -/
structure FrameSince (s t : State) (es : List Event) : Prop where
  trace : t.trace = s.trace ++ es
  stage : es.foldl Stage.next (.ofPhase s.seq) = .ofPhase t.seq
  opr : t.seq ≠ .idle → t.opr = s.opr
  unsent : t.seq = .sel ∨ t.seq = .cmd → firstSent es = none
  sent : t.seq = .data → firstSent es = some s.opr
  first : firstSent es = some s.opr ∨ firstSent es = none

theorem FrameSince.start {s : State} (hs : s.seq = .sel) : FrameSince s s [] :=
  ⟨(List.append_nil _).symm, rfl, fun _ => rfl, fun _ => rfl, by simp [hs], .inr rfl⟩

/-- While an operation runs, a row keeps its select code. -/
theorem Row.opr {s t : State} (row : Row s t) (ht : t.seq ≠ .idle) : t.opr = s.opr := by
  cases row with
  | selected _ same | notSelected _ same | commandOnly _ same | command _ same | commandFailed _ same
  | dataFailed _ same | more _ _ _ same | last _ _ _ same => exact same.opr
  | completed _ _ seq | notDeselected _ _ seq | aborted _ _ seq => exact absurd seq ht

/-- Where the phases lead: `CMD` only from `SEL`, `DATA` only from `CMD` and `DATA`, and to `SEL` none. -/
theorem Row.phases {s t : State} (row : Row s t) :
    t.seq ≠ .sel ∧ (t.seq = .cmd → s.seq = .sel) ∧ (t.seq = .data → s.seq = .cmd ∨ s.seq = .data) := by
  cases row with
  | selected phase _ seq | notSelected phase _ seq | commandOnly phase _ _ seq | command phase _ _ seq
  | commandFailed phase _ seq | dataFailed phase _ seq | more _ _ phase _ _ _ seq | last _ _ phase _ _ _ seq
  | completed phase _ seq | notDeselected phase _ seq | aborted phase _ seq => simp [phase, seq]

/-- One row on, the events are still the part of a frame that the phases say. -/
theorem FrameSince.row {s t u : State} {es : List Event} (h : FrameSince s t es) (row : Row t u)
    (ht : t.seq ≠ .idle) : ∃ es, FrameSince s u es := by
  obtain ⟨e, emits⟩ := row.emits
  obtain ⟨hsel, hcmd, hdata⟩ := row.phases
  have hopr := h.opr ht
  have hadd : firstSent (es ++ [e]) = (firstSent es).or (firstSent [e]) := firstSent_append es [e]
  refine ⟨es ++ [e], ?_, ?_, fun hu => (row.opr hu).trans hopr, ?_, ?_, ?_⟩
  · rw [emits.trace, h.trace, List.append_assoc]
  · rw [List.foldl_append, h.stage]
    exact emits.stage
  · rintro (hu | hu)
    · exact absurd hu hsel
    · rw [hadd, h.unsent (.inl (hcmd hu)), emits.silent (.inl (hcmd hu))]
      rfl
  · intro hu
    rcases hdata hu with hp | hp
    · rw [hadd, h.unsent (.inr hp), emits.command hp, hopr]
      rfl
    · rw [hadd, h.sent hp]
      rfl
  · cases hp : t.seq with
    | idle => exact absurd hp ht
    | cmd => exact .inl (by rw [hadd, h.unsent (.inr hp), emits.command hp, hopr]; rfl)
    | data => exact .inl (by rw [hadd, h.sent hp]; rfl)
    | sel | desel | abort =>
      rw [hadd, emits.silent (by simp [hp]), Option.or_none]
      exact h.first

/-- A run of the sequencer emits the part of a frame that its phases say. -/
theorem runSequencer_frameSince (n : Nat) {s : State} (hs : s.seq = .sel) :
    ∃ es, FrameSince s (runSequencer n s) es := by
  refine runSequencer_keeps (P := fun t => ∃ es, FrameSince s t es) ?_ ?_ n s ⟨_, .start hs⟩
  · exact fun t u ⟨_, h⟩ ht hu => h.row (tick_row hu) ht
  · intro t u ⟨es, h⟩ _ hu
    obtain ⟨same, trace, -⟩ := tick_waiting hu
    refine ⟨es, trace.trans h.trace, ?_, ?_, ?_, ?_, h.first⟩ <;> rw [same.seq]
    exacts [h.stage, fun ht => same.opr.trans (h.opr ht), h.unsent, h.sent]

/-- Settles O32: an accepted operation starts in `SEL`, before the frame. -/
theorem operationsEmitOneFrame : Obligations.OperationsEmitOneFrame := by
  intro i code s hi hs hw
  obtain ⟨es, h⟩ := runSequencer_frameSince Config.callLimit
    (State.accept_seq code (latchedOperand s.wdata i) s)
  exact ⟨_, es, exec_accepted hi hs hw, h.trace, h.stage, h.first⟩

end Sys2Proof.Machine
end

section
/-!
PROOFS. The command-only operations (40_clear R110 to R114, 43_load R150 to R152): one frame, in every environment.
-/

namespace Sys2Proof.Machine

/-- After a selection the reference peripheral defines no byte for the command byte: it returns the environment's, be
it in the frame or lost (20_memory R72, log 16). -/
theorem Device.exchange_selected (d : Device) (line : Level) (k : Nat) (tx rx : Byte) :
    ((d.select line).exchange k tx rx).1 = rx := by
  cases line <;> rfl

theorem State.accept_hostSide (code : Byte) (w : Word) (s : State) : KeepsHostSide s (s.accept code w) :=
  ⟨rfl, rfl, rfl, rfl⟩

/-- A command-only operation with its three calls answered ok. -/
theorem exec_command_only {i : Instr} {code a b c : Byte} {s : State} {rest : List Reply}
    (hi : commandByte i = some code) (hformat : formatOf code = .commandOnly) (hs : s.seq = .idle)
    (hreplies : s.replies = .ok a :: .ok b :: .ok c :: rest) :
    ∃ t, exec i s = .next t ∧ t.seq = .idle ∧ t.result = some .done ∧
      t.trace = s.trace ++ [.csLow, .xfer code b, .csHigh] ∧ t.dw = s.dw ∧ t.csLine = .high ∧
      t.replies = rest ∧ KeepsHostSide s t ∧ (s.world = .arbitrary → t.dev = s.dev) := by
  obtain ⟨u, hu, sameU, hus, hur, hutrace, -, huarb, huref⟩ :=
    tick_sel_ok (State.accept_seq code (latchedOperand s.wdata i) s) hreplies
  obtain ⟨v, hv, sameV, hphase, hvr, hvtrace, -, hvarb, -⟩ := tick_cmd_ok hus hur
  have same := sameU.trans sameV
  have hopr : v.opr = code := same.opr
  have hvs : v.seq = .desel := by
    have hzero : u.payloadLen = 0 := by rw [State.payloadLen, sameU.opr, State.accept_opr, hformat]; rfl
    exact hphase.elim And.right fun h => absurd hzero h.1
  have hbyte : u.received u.opr b = b := by
    cases hworld : s.world with
    | arbitrary => exact State.received_arbitrary (sameU.world.trans hworld) _ _
    | reference =>
      rw [State.received_reference (sameU.world.trans hworld), huref hworld, Device.exchange_selected]
  obtain ⟨t, ht, hts, hdw, hresult, hlext, hinbox, hwdata, hworld, htr, httrace, hline, htarb, -⟩ :=
    tick_desel_ok hvs hvr
  have hother : v.opr ≠ 0x90#8 := by
    rintro h
    rw [hopr] at h
    rw [h] at hformat
    exact absurd hformat (by decide)
  have hrun : runSequencer Config.callLimit (s.accept code (latchedOperand s.wdata i)) = t := by
    rw [Config.callLimit, runSequencer_moved (by simp) hu, runSequencer_moved (by simp [hus]) hv,
      runSequencer_ended (by simp [hvs]) ht hts]
  have hreads : usesWidth i = true → widthValid s.dw = true := by
    rw [← readsWidth_commandByte hi, hformat]
    exact fun h => absurd h (by decide)
  refine ⟨t, by rw [exec_accepted hi hs hreads, hrun], hts, ?_, ?_, ?_, hline, htr,
    (s.accept_hostSide _ _).trans (same.hostSide.trans ⟨hinbox, hwdata, hlext, hworld⟩), fun harb => ?_⟩
  · rw [hresult, hopr, hformat]
    rfl
  · rw [httrace, hvtrace, hutrace, hbyte, sameU.opr]
    simp
  · rw [hdw, if_neg hother]
    exact same.dw
  · exact (htarb (same.world.trans harb)).trans ((hvarb (sameU.world.trans harb)).trans (huarb harb))

/-- Settles O24: the six operations are the one lemma at their command byte. -/
theorem commandOperationsComplete : Obligations.CommandOperationsComplete := by
  intro s a b c rest i code hs hreplies hmem
  simp only [List.mem_cons, List.not_mem_nil, or_false, Prod.mk.injEq] at hmem
  obtain ⟨hi, hformat⟩ : commandByte i = some code ∧ formatOf code = .commandOnly := by
    rcases hmem with ⟨rfl, rfl⟩ | ⟨rfl, rfl⟩ | ⟨rfl, rfl⟩ | ⟨rfl, rfl⟩ | ⟨rfl, rfl⟩ | ⟨rfl, rfl⟩ <;>
      exact ⟨rfl, rfl⟩
  exact exec_command_only hi hformat hs hreplies

end Sys2Proof.Machine
end

section
/-!
PROOFS. The sequencer against the frame pseudocode (30_encoding R87 to R90, 60_exceptions R175): at every phase the
pseudocode has a rest still to do, each row of the table takes one event off it, and the last row leaves its outcome.
-/

namespace Sys2Proof.Machine

/-! ### The pseudocode at a phase -/

/-- The payload bytes still to send after `m` of them. -/
def State.payloadLeft (m : Nat) (s : State) : List Byte := (payloadBytes (formatOf s.opr) s.dw s.wdr).drop m

theorem State.payloadLeft_cons {s : State} {m : Nat} (h : m < s.payloadLen) :
    s.payloadLeft m = payloadByte (formatOf s.opr) s.dw s.wdr m :: s.payloadLeft (m + 1) := by
  have hlt : m < (payloadBytes (formatOf s.opr) s.dw s.wdr).length := by rwa [payloadBytes_length]
  rw [State.payloadLeft, List.drop_eq_getElem_cons hlt]
  simp [payloadBytes, State.payloadLeft]

theorem State.payloadLeft_nil {s : State} {m : Nat} (h : s.payloadLen ≤ m) : s.payloadLeft m = [] :=
  List.drop_eq_nil_of_le (by rwa [payloadBytes_length])

theorem SameOperation.payloadLeft {s t : State} (h : SameOperation s t) (m : Nat) :
    t.payloadLeft m = s.payloadLeft m := by rw [State.payloadLeft, State.payloadLeft, h.opr, h.dw, h.wdr]

/-- What the frame pseudocode still has to do where the sequencer stands, with the bytes received so far. -/
def State.frameLeft (received : List Byte) (s : State) : Option FrameOutcome :=
  match s.seq with
  | .sel => frame (s.opr :: s.payloadLeft 0) s.replies
  | .cmd => transferAll received (s.opr :: s.payloadLeft 0) s.replies
  | .data => transferAll received (s.payloadLeft s.idx.toNat) s.replies
  | .desel => closeFrame received s.replies
  | .abort => abortFrame s.err s.replies
  | .idle => none

section
variable {received : List Byte} {s : State}

theorem State.frameLeft_sel (hs : s.seq = .sel) :
    s.frameLeft received = frame (s.opr :: s.payloadLeft 0) s.replies := by simp only [State.frameLeft, hs]

theorem State.frameLeft_cmd (hs : s.seq = .cmd) :
    s.frameLeft received = transferAll received (s.opr :: s.payloadLeft 0) s.replies := by
  simp only [State.frameLeft, hs]

theorem State.frameLeft_data (hs : s.seq = .data) :
    s.frameLeft received = transferAll received (s.payloadLeft s.idx.toNat) s.replies := by
  simp only [State.frameLeft, hs]

theorem State.frameLeft_desel (hs : s.seq = .desel) : s.frameLeft received = closeFrame received s.replies := by
  simp only [State.frameLeft, hs]

theorem State.frameLeft_abort (hs : s.seq = .abort) : s.frameLeft received = abortFrame s.err s.replies := by
  simp only [State.frameLeft, hs]

theorem State.frameLeft_idle (hs : s.seq = .idle) : s.frameLeft received = none := by
  simp only [State.frameLeft, hs]

/-- The pseudocode comes to nothing where the next call is not answered. -/
theorem State.frameLeft_unanswered (h : s.replies = [] ∨ ∃ rest, s.replies = .silent :: rest) :
    s.frameLeft received = none := by
  have htransfer (txs : List Byte) : transferAll received txs s.replies = none := by
    rcases h with h | ⟨rest, h⟩ <;> rw [h] <;> cases txs <;> rfl
  cases hs : s.seq with
  | idle => exact State.frameLeft_idle hs
  | cmd => rw [State.frameLeft_cmd hs, htransfer]
  | data => rw [State.frameLeft_data hs, htransfer]
  | sel => rw [State.frameLeft_sel hs]; rcases h with h | ⟨rest, h⟩ <;> rw [h] <;> rfl
  | desel => rw [State.frameLeft_desel hs]; rcases h with h | ⟨rest, h⟩ <;> rw [h] <;> rfl
  | abort => rw [State.frameLeft_abort hs]; rcases h with h | ⟨rest, h⟩ <;> rw [h] <;> rfl

theorem State.frameLeft_answered {o : FrameOutcome} (h : s.frameLeft received = some o) :
    (∃ rx rest, s.replies = .ok rx :: rest) ∨ ∃ rest, s.replies = .fail :: rest := by
  have silence (hr : s.replies = [] ∨ ∃ rest, s.replies = .silent :: rest) : False := by
    rw [State.frameLeft_unanswered hr] at h
    cases h
  match hr : s.replies with
  | [] => exact (silence (.inl hr)).elim
  | .silent :: rest => exact (silence (.inr ⟨rest, hr⟩)).elim
  | .ok rx :: rest => exact .inl ⟨rx, rest, rfl⟩
  | .fail :: rest => exact .inr ⟨rest, rfl⟩

end

/-- The sequencer at `s` runs operation `i` in an arbitrary environment and has received `received`, of which a read
holds all but the byte of the command in `ACC` (30_encoding R86, R90). -/
structure Carries (i : Instr) (received : List Byte) (s : State) : Prop where
  opr : commandByte i = some s.opr
  wdr : ∃ wdata, s.wdr = latchedOperand wdata i
  world : s.world = .arbitrary
  before : s.seq = .sel ∨ s.seq = .cmd → received = []
  amid : s.seq = .data → received.length = s.idx.toNat + 1
  behind : s.seq = .desel → received.length = s.payloadLen + 1
  acc : s.seq = .data ∨ s.seq = .desel → isRead (formatOf s.opr) = true → s.acc = assemble (received.drop 1)

/-- The operation that stood at `s` has ended at `t` as the rest of its frame says. -/
structure MeetsFrame (i : Instr) (o : FrameOutcome) (s t : State) : Prop where
  idle : t.seq = .idle
  trace : t.trace = s.trace ++ o.events
  replies : t.replies = o.rest
  result : t.result = some (frameResult i o.outcome)
  dw : t.dw = widthAfter i s.dw o.outcome
  dev : t.dev = s.dev
  host : KeepsHostSide s t

/-- One row of the sequencer's table, against what the pseudocode still has to do. -/
inductive FrameStep (i : Instr) (o : FrameOutcome) (s : State) : Prop where
  /-- The row makes the first call of the rest, and the pseudocode goes on where the sequencer then stands. -/
  | onward (t : State) (e : Event) (received : List Byte) (left : FrameOutcome) (moved : tick s = .moved t)
      (same : SameOperation s t) (trace : t.trace = s.trace ++ [e]) (dev : t.dev = s.dev)
      (carries : Carries i received t) (frameLeft : t.frameLeft received = some left) (first : o = left.after e)
  /-- The row makes the last call. -/
  | ended (t : State) (moved : tick s = .moved t) (meets : MeetsFrame i o s t)

theorem FrameOutcome.eq_after {e : Event} {left : Option FrameOutcome} {o : FrameOutcome}
    (h : left.map (FrameOutcome.after e) = some o) : ∃ o', left = some o' ∧ o = o'.after e := by
  obtain ⟨o', hleft, ho⟩ := Option.map_eq_some_iff.1 h
  exact ⟨o', hleft, ho.symm⟩

/-- What the operation needs to be carried on, of a row that stays in it. -/
theorem Carries.of_sameOperation {i : Instr} {received received' : List Byte} {s t : State}
    (h : Carries i received s) (same : SameOperation s t)
    (before : t.seq = .sel ∨ t.seq = .cmd → received' = [])
    (amid : t.seq = .data → received'.length = t.idx.toNat + 1)
    (behind : t.seq = .desel → received'.length = s.payloadLen + 1)
    (acc : t.seq = .data ∨ t.seq = .desel → isRead (formatOf s.opr) = true → t.acc = assemble (received'.drop 1)) :
    Carries i received' t where
  opr := same.opr ▸ h.opr
  wdr := same.wdr ▸ h.wdr
  world := same.world.trans h.world
  before := before
  amid := amid
  behind := same.payloadLen ▸ behind
  acc := same.opr ▸ acc

/-- A failed call leads to the abort sequence of the pseudocode (60_exceptions R175). -/
theorem Carries.aborts {i : Instr} {received : List Byte} {s t : State} {o : FrameOutcome} {f : Failure}
    {e : Event} {rest : List Reply} (h : Carries i received s) (moved : tick s = .moved t)
    (same : SameOperation s t) (seq : t.seq = .abort) (err : t.err = f) (replies : t.replies = rest)
    (trace : t.trace = s.trace ++ [e]) (dev : s.world = .arbitrary → t.dev = s.dev)
    (hleft : (abortFrame f rest).map (FrameOutcome.after e) = some o) : FrameStep i o s := by
  obtain ⟨left, hrest, rfl⟩ := FrameOutcome.eq_after hleft
  refine .onward t e received left moved same trace (dev h.world)
    (h.of_sameOperation same (by simp [seq]) (by simp [seq]) (by simp [seq]) (by simp [seq])) ?_ rfl
  rw [State.frameLeft_abort seq, err, replies]
  exact hrest

/-! ### The value and the width of an operation that ends well -/

/-- The value in `Ok(..)` is that of the payload bytes (41_read R122, R123). -/
theorem okResult_assemble {i : Instr} {code : Byte} (hi : commandByte i = some code) {dw : Width}
    {payload : List Byte} (hlen : payload.length = payloadLength (formatOf code) dw) :
    okResult (formatOf code) (assemble payload) = valueOf i payload := by
  cases i with
  | rdMdr0 | rdMdr1 | rdStr =>
    cases hi
    obtain ⟨r, rfl⟩ := List.length_eq_one_iff.1 hlen
    exact congrArg Result.byte (by simp [assemble, accStep])
  | lext v => cases hi
  | _ => cases hi; rfl

/-- The commit is that of the operation's own width (42_write R138). -/
theorem widthAfter_ok {i : Instr} {code : Byte} (hi : commandByte i = some code) (dw : Width) (wdata : Word)
    (received : List Byte) :
    widthAfter i dw (.ok received) =
      if code = 0x90#8 then widthOfMdr1 (byteOperand (latchedOperand wdata i)) else dw := by
  by_cases h : code = 0x90#8
  · subst h
    obtain ⟨value, rfl⟩ := eq_wrMdr1_of_commandByte hi
    rw [if_pos rfl, latchedOperand, byteOperand_withByteOperand]
    rfl
  · rw [if_neg h]
    cases i with
    | wrMdr1 => cases hi; exact absurd rfl h
    | _ => rfl

/-! ### One row -/

section
variable {i : Instr} {received : List Byte} {s : State} {o : FrameOutcome}

theorem Carries.frameStep_sel (h : Carries i received s) (hs : s.seq = .sel)
    (hleft : s.frameLeft received = some o) : FrameStep i o s := by
  have hanswer := State.frameLeft_answered hleft
  rw [State.frameLeft_sel hs] at hleft
  rcases hanswer with ⟨rx, rest, hr⟩ | ⟨rest, hr⟩ <;> rw [hr] at hleft
  · obtain ⟨t, moved, same, seq, replies, trace, -, dev, -⟩ := tick_sel_ok hs hr
    obtain ⟨left, hrest, rfl⟩ := FrameOutcome.eq_after hleft
    refine .onward t _ [] left moved same trace (dev h.world)
      (h.of_sameOperation same (fun _ => rfl) (by simp [seq]) (by simp [seq]) (by simp [seq])) ?_ rfl
    rw [State.frameLeft_cmd seq, same.opr, same.payloadLeft, replies]
    exact hrest
  · obtain ⟨t, moved, same, seq, err, replies, trace, dev⟩ := tick_sel_fail hs hr
    exact h.aborts moved same seq err replies trace dev hleft

theorem Carries.frameStep_cmd (h : Carries i received s) (hs : s.seq = .cmd) (hc : s.coherent = true)
    (hleft : s.frameLeft received = some o) : FrameStep i o s := by
  obtain rfl := h.before (.inr hs)
  have hanswer := State.frameLeft_answered hleft
  rw [State.frameLeft_cmd hs] at hleft
  rcases hanswer with ⟨rx, rest, hr⟩ | ⟨rest, hr⟩ <;> rw [hr] at hleft
  · obtain ⟨t, moved, same, hphase, replies, trace, -, dev, -⟩ := tick_cmd_ok hs hr
    rw [State.received_arbitrary h.world] at trace
    obtain ⟨left, hrest, rfl⟩ := FrameOutcome.eq_after hleft
    refine .onward t _ [rx] left moved same trace (dev h.world) ?_ ?_ rfl
    · rcases hphase with ⟨hzero, seq⟩ | ⟨-, seq, idx, acc⟩
      · refine h.of_sameOperation same (by simp [seq]) (by simp [seq]) (by simp [hzero]) fun _ hread => ?_
        have hwidth := ((s.coherent_iff.1 hc).1 (by simp [hs])).2
        exact absurd hzero (Nat.ne_of_gt (payloadLength_pos_of_isRead hread hwidth))
      · exact h.of_sameOperation same (by simp [seq]) (by simp [idx]) (by simp [seq]) fun _ => acc
    · rcases hphase with ⟨hzero, seq⟩ | ⟨-, seq, idx, -⟩
      · rw [State.payloadLeft_nil hzero.le] at hrest
        rw [State.frameLeft_desel seq, replies]
        exact hrest
      · rw [State.frameLeft_data seq, same.payloadLeft, idx, replies]
        exact hrest
  · obtain ⟨t, moved, same, seq, err, replies, trace, dev⟩ := tick_cmd_fail hs hr
    exact h.aborts moved same seq err replies trace dev hleft

theorem Carries.frameStep_data (h : Carries i received s) (hs : s.seq = .data) (hc : s.coherent = true)
    (hleft : s.frameLeft received = some o) : FrameStep i o s := by
  have hidx : s.idx.toNat < s.payloadLen := (s.coherent_iff.1 hc).2 hs
  have hlen := h.amid hs
  have hanswer := State.frameLeft_answered hleft
  rw [State.frameLeft_data hs, State.payloadLeft_cons hidx] at hleft
  rcases hanswer with ⟨rx, rest, hr⟩ | ⟨rest, hr⟩ <;> rw [hr] at hleft
  · obtain ⟨t, moved, same, hphase, acc, replies, trace, -, dev, -⟩ := tick_data_ok hs hr rfl
    rw [State.received_arbitrary h.world] at trace acc
    have hlen' : (received ++ [rx]).length = s.idx.toNat + 1 + 1 := by
      rw [List.length_append, hlen, List.length_singleton]
    have hacc (hread : isRead (formatOf s.opr) = true) : t.acc = assemble ((received ++ [rx]).drop 1) := by
      rw [acc, if_pos hread, h.acc (.inl hs) hread, List.drop_append_of_le_length (by omega), assemble_concat]
    obtain ⟨left, hrest, rfl⟩ := FrameOutcome.eq_after hleft
    refine .onward t _ (received ++ [rx]) left moved same trace (dev h.world) ?_ ?_ rfl
    · rcases hphase with ⟨hmore, seq, idx⟩ | ⟨hlast, seq⟩
      · refine h.of_sameOperation same (by simp [seq]) (fun _ => ?_) (by simp [seq]) fun _ => hacc
        rw [idx, State.idx_succ_toNat hc (by simp [hs]) hmore, hlen']
      · refine h.of_sameOperation same (by simp [seq]) (by simp [seq]) (fun _ => ?_) fun _ => hacc
        omega
    · rcases hphase with ⟨hmore, seq, idx⟩ | ⟨hlast, seq⟩
      · rw [State.frameLeft_data seq, same.payloadLeft, idx, State.idx_succ_toNat hc (by simp [hs]) hmore, replies]
        exact hrest
      · rw [State.payloadLeft_nil (Nat.le_of_not_lt hlast)] at hrest
        rw [State.frameLeft_desel seq, replies]
        exact hrest
  · obtain ⟨t, moved, same, seq, err, replies, trace, dev⟩ := tick_data_fail hs hr
    exact h.aborts moved same seq err replies trace dev hleft

theorem Carries.frameStep_desel (h : Carries i received s) (hs : s.seq = .desel)
    (hleft : s.frameLeft received = some o) : FrameStep i o s := by
  have hanswer := State.frameLeft_answered hleft
  rw [State.frameLeft_desel hs] at hleft
  rcases hanswer with ⟨rx, rest, hr⟩ | ⟨rest, hr⟩ <;> rw [hr] at hleft <;> cases hleft
  · obtain ⟨t, moved, seq, dw, result, lextOut, inbox, wdata, world, replies, trace, -, dev, -⟩ :=
      tick_desel_ok hs hr
    refine .ended t moved ⟨seq, trace, replies, ?_, ?_, dev h.world, ⟨inbox, wdata, lextOut, world⟩⟩
    · have hlen : (received.drop 1).length = payloadLength (formatOf s.opr) s.dw := by
        rw [List.length_drop, h.behind hs]
        rfl
      rw [result, frameResult, ← okResult_assemble h.opr hlen]
      cases hread : isRead (formatOf s.opr) with
      | true => rw [h.acc (.inr hs) hread]
      | false => exact congrArg some (okResult_of_not_isRead hread _ _)
    · obtain ⟨wdata, hwdr⟩ := h.wdr
      rw [dw, hwdr, widthAfter_ok h.opr]
  · obtain ⟨t, moved, seq, dw, result, lextOut, inbox, wdata, world, replies, trace, dev⟩ := tick_desel_fail hs hr
    exact .ended t moved ⟨seq, trace, replies, result, dw, dev h.world, ⟨inbox, wdata, lextOut, world⟩⟩

theorem Carries.frameStep_abort (h : Carries i received s) (hs : s.seq = .abort)
    (hleft : s.frameLeft received = some o) : FrameStep i o s := by
  have hanswer := State.frameLeft_answered hleft
  rw [State.frameLeft_abort hs] at hleft
  rcases hanswer with ⟨rx, rest, hr⟩ | ⟨rest, hr⟩ <;> rw [hr] at hleft <;> cases hleft <;>
    obtain ⟨t, moved, seq, dw, result, lextOut, inbox, wdata, world, replies, trace, dev⟩ :=
      tick_abort hs (by simp) hr <;>
    exact .ended t moved ⟨seq, trace, replies, result, dw, dev h.world, ⟨inbox, wdata, lextOut, world⟩⟩

/-- Every row of the sequencer's table is a call of the pseudocode. -/
theorem Carries.frameStep (h : Carries i received s) (hc : s.coherent = true)
    (hleft : s.frameLeft received = some o) : FrameStep i o s := by
  cases hs : s.seq with
  | idle => rw [State.frameLeft_idle hs] at hleft; cases hleft
  | sel => exact h.frameStep_sel hs hleft
  | cmd => exact h.frameStep_cmd hs hc hleft
  | data => exact h.frameStep_data hs hc hleft
  | desel => exact h.frameStep_desel hs hleft
  | abort => exact h.frameStep_abort hs hleft

end

/-! ### The whole frame -/

/-- One event in front of a frame met. -/
theorem MeetsFrame.after {i : Instr} {o : FrameOutcome} {s t u : State} {e : Event} (h : MeetsFrame i o t u)
    (same : SameOperation s t) (trace : t.trace = s.trace ++ [e]) (dev : t.dev = s.dev) :
    MeetsFrame i (o.after e) s u where
  idle := h.idle
  trace := by rw [h.trace, trace, List.append_assoc]; rfl
  replies := h.replies
  result := h.result
  dw := same.dw ▸ h.dw
  dev := h.dev.trans dev
  host := same.hostSide.trans h.host

/-- A run that may make all the calls left comes to what the pseudocode still has to do. -/
theorem runSequencer_meetsFrame {i : Instr} (n : Nat) : ∀ (s : State) (received : List Byte) (o : FrameOutcome),
    Carries i received s → s.coherent = true → s.callsLeft ≤ n → s.frameLeft received = some o →
    MeetsFrame i o s (runSequencer n s) := by
  have busy {s : State} {received : List Byte} {o : FrameOutcome} (hleft : s.frameLeft received = some o) :
      s.seq ≠ .idle := by
    intro hs
    rw [State.frameLeft_idle hs] at hleft
    cases hleft
  induction n with
  | zero =>
    intro s received o _ _ hn hleft
    have := State.callsLeft_pos (busy hleft)
    omega
  | succ n ih =>
    intro s received o h hc hn hleft
    have hs := busy hleft
    cases h.frameStep hc hleft with
    | ended t moved meets => rwa [runSequencer_ended hs moved meets.idle]
    | onward t e received' left moved same trace dev carries frameLeft first =>
      have row := tick_row moved
      have hlt := row.callsLeft_lt hs hc
      rw [runSequencer_moved hs moved, first]
      exact (ih t received' left carries (row.coherent hs hc) (by omega) frameLeft).after same trace dev

/-- Settles O31: acceptance begins the frame of the operation's wire bytes. -/
theorem sequencerMeetsFrame : Obligations.SequencerMeetsFrame := by
  intro i code s o hi hs hworld hw hframe
  have hc : (s.accept code (latchedOperand s.wdata i)).coherent = true :=
    State.accept_coherent hi (readsWidth_commandByte hi ▸ hw) _
  have hcarries : Carries i [] (s.accept code (latchedOperand s.wdata i)) :=
    ⟨hi, ⟨_, rfl⟩, hworld, fun _ => rfl, by simp, by simp, by simp⟩
  rw [wireBytes_eq hi s.dw s.wdata] at hframe
  have hmeets := runSequencer_meetsFrame Config.callLimit _ [] o hcarries hc (State.callsLeft_le hc) hframe
  exact ⟨_, exec_accepted hi hs hw, hmeets.idle, hmeets.trace, hmeets.replies, hmeets.result, hmeets.dw,
    hmeets.dev, (s.accept_hostSide _ _).trans hmeets.host⟩

end Sys2Proof.Machine
end

section
/-!
PROOFS. Received bytes that the engine discards (30_encoding R86): two runs whose answers differ in such bytes stay
alike in all but the trace and the script, call by call.
-/

namespace Sys2Proof.Machine

/-! ### Two machines that differ in trace and script -/

/-- `s` with another trace and another script. -/
def State.vary (es : List Event) (rs : List Reply) (s : State) : State := { s with trace := es, replies := rs }

theorem State.vary_afterCommand (es : List Event) (rs : List Reply) (s : State) :
    (s.vary es rs).afterCommand = s.afterCommand.vary es rs := by
  by_cases h : s.payloadLen = 0
  · rw [State.afterCommand_of_empty h, State.afterCommand_of_empty (s := s.vary es rs) h]; rfl
  · rw [State.afterCommand_of_payload h, State.afterCommand_of_payload (s := s.vary es rs) h]; rfl

theorem State.vary_afterData (es : List Event) (rs : List Reply) (rx : Byte) (s : State) :
    (s.vary es rs).afterData rx = (s.afterData rx).vary es rs := by
  rw [State.afterData_eq, State.afterData_eq, apply_ite (State.vary es rs)]
  rfl

theorem State.vary_succeed (es : List Event) (rs : List Reply) (s : State) :
    (s.vary es rs).succeed = s.succeed.vary es rs := by
  by_cases h : s.opr = 0x90#8
  · rw [State.succeed, State.succeed, State.commit_of_wrMdr1 h, State.commit_of_wrMdr1 (s := s.vary es rs) h]
    rfl
  · rw [State.succeed, State.succeed, State.commit_of_other h, State.commit_of_other (s := s.vary es rs) h]
    rfl

/-- An update of the engine that neither touches nor looks at the trace and the script. -/
structure Blind (f : State → State) : Prop where
  trace : ∀ s, (f s).trace = s.trace
  replies : ∀ s, (f s).replies = s.replies
  vary : ∀ es rs s, f (s.vary es rs) = (f s).vary es rs

theorem blind_phase (p : Phase) : Blind fun s => { s with seq := p } := ⟨fun _ => rfl, fun _ => rfl, fun _ _ _ => rfl⟩

theorem blind_abort (f : Failure) : Blind (State.abort f) := ⟨fun _ => rfl, fun _ => rfl, fun _ _ _ => rfl⟩

theorem blind_finish (r : Result) : Blind (State.finish r) := ⟨fun _ => rfl, fun _ => rfl, fun _ _ _ => rfl⟩

theorem blind_finish_err : Blind fun s => s.finish (.err s.err) := ⟨fun _ => rfl, fun _ => rfl, fun _ _ _ => rfl⟩

theorem blind_afterCommand : Blind State.afterCommand where
  trace s := by obtain ⟨-, -, -, trace, -⟩ := s.afterCommand_spec; exact trace
  replies s := by obtain ⟨-, -, replies, -⟩ := s.afterCommand_spec; exact replies
  vary := State.vary_afterCommand

theorem blind_afterData (rx : Byte) : Blind (State.afterData rx) where
  trace s := by obtain ⟨-, -, -, -, trace, -⟩ := s.afterData_spec rx; exact trace
  replies s := by obtain ⟨-, -, -, replies, -⟩ := s.afterData_spec rx; exact replies
  vary es rs s := State.vary_afterData es rs rx s

theorem blind_succeed : Blind State.succeed where
  trace s := by simp [State.succeed]
  replies s := by simp [State.succeed]
  vary := State.vary_succeed

/-- A write, a clear or a load does not look at the byte received with its payload (30_encoding R86). -/
theorem State.afterData_discards {s : State} (h : isRead (formatOf s.opr) = false) (rx rx' : Byte) :
    s.afterData rx = s.afterData rx' := by
  rw [State.afterData_eq, State.afterData_eq, State.accumulate, State.accumulate, h]
  rfl

/-! ### One call in two runs -/

/-- The call recorded as `e` has been answered in an arbitrary environment; the line is then at `line`. -/
def State.answered (rest : List Reply) (line : Level) (e : Event) (s : State) : State :=
  ({ s with replies := rest, csLine := line }.emit e).advance

theorem State.onDevice_arbitrary {s : State} (h : s.world = .arbitrary) (g : Device → Device) :
    s.onDevice g = s := by simp [State.onDevice, h]

section
variable {s : State} {rx : Byte} {rest : List Reply} (hw : s.world = .arbitrary)
include hw

theorem State.csLowCall_arbitrary_ok (h : s.replies = .ok rx :: rest) :
    s.csLowCall = .ok rx (s.answered rest .low .csLow) := by
  rw [State.csLowCall_ok h, State.onDevice_arbitrary (s := { s with replies := rest }) hw]; rfl

theorem State.csLowCall_arbitrary_fail (h : s.replies = .fail :: rest) :
    s.csLowCall = .fail (s.answered rest (Config.freeLevel s.draws) .csLowFail) := by
  rw [State.csLowCall_fail h, State.onDevice_arbitrary (s := { s with replies := rest }) hw]; rfl

theorem State.csHighCall_arbitrary_ok (h : s.replies = .ok rx :: rest) :
    s.csHighCall = .ok rx (s.answered rest .high .csHigh) := by
  rw [State.csHighCall_ok h, State.onDevice_arbitrary (s := { s with replies := rest }) hw]; rfl

theorem State.csHighCall_arbitrary_fail (h : s.replies = .fail :: rest) :
    s.csHighCall = .fail (s.answered rest (Config.freeLevel s.draws) .csHighFail) := by
  rw [State.csHighCall_fail h, State.onDevice_arbitrary (s := { s with replies := rest }) hw]; rfl

theorem State.xferCall_arbitrary_ok (tx : Byte) (h : s.replies = .ok rx :: rest) :
    s.xferCall tx = .ok rx (s.answered rest s.csLine (.xfer tx rx)) := by
  rw [State.xferCall_ok h, State.onDevice_arbitrary (s := { s with replies := rest }) hw,
    State.received_arbitrary hw]; rfl

theorem State.xferCall_arbitrary_fail (tx : Byte) (h : s.replies = .fail :: rest) :
    s.xferCall tx = .fail (s.answered rest s.csLine (.xferFail tx)) := by
  rw [State.xferCall_fail h, State.onDevice_arbitrary (s := { s with replies := rest }) hw]; rfl

end

theorem sameAnswer_cases {r r' : Reply} (h : sameAnswer r r') :
    (∃ rx rx', r = .ok rx ∧ r' = .ok rx') ∨ (r = .fail ∧ r' = .fail) ∨ (r = .silent ∧ r' = .silent) := by
  cases r with
  | ok rx => cases r' with
    | ok rx' => exact .inl ⟨rx, rx', rfl, rfl⟩
    | fail | silent => exact False.elim h
  | fail => cases r' with
    | fail => exact .inr (.inl ⟨rfl, rfl⟩)
    | ok | silent => exact False.elim h
  | silent => cases r' with
    | silent => exact .inr (.inr ⟨rfl, rfl⟩)
    | ok | fail => exact False.elim h

theorem sameAnswer_refl (r : Reply) : sameAnswer r r := by cases r <;> trivial

theorem sameCall_refl (e : Event) : sameCall e e := by cases e <;> rfl

/-- What one call comes to in two runs, the one at `s` with the answer `r`, the other with trace `es` and the answer
`r'`: the same, but for the byte received. -/
inductive CallAlike (s : State) (r : Reply) (rest : List Reply) (es : List Event) (r' : Reply) (rest' : List Reply)
    (k k' : Called) : Prop where
  | ok (rx rx' : Byte) (line : Level) (e e' : Event) (answer : r = .ok rx) (answer' : r' = .ok rx')
      (same : sameCall e e') (left : k = .ok rx (s.answered rest line e))
      (right : k' = .ok rx' ((s.answered rest line e).vary (es ++ [e']) rest'))
  | fail (line : Level) (e : Event) (left : k = .fail (s.answered rest line e))
      (right : k' = .fail ((s.answered rest line e).vary (es ++ [e]) rest'))
  | silent (left : k = .silent { s with replies := rest }) (right : k' = .silent (s.vary es rest'))

section
variable {s : State} {r r' : Reply} {rest : List Reply} (es : List Event) (rest' : List Reply)
  (hw : s.world = .arbitrary) (hr : s.replies = r :: rest) (hrr : sameAnswer r r')
include hw hr hrr

theorem State.csLowCall_alike :
    CallAlike s r rest es r' rest' s.csLowCall (s.vary es (r' :: rest')).csLowCall := by
  rcases sameAnswer_cases hrr with ⟨rx, rx', rfl, rfl⟩ | ⟨rfl, rfl⟩ | ⟨rfl, rfl⟩
  · exact .ok rx rx' .low .csLow .csLow rfl rfl rfl (State.csLowCall_arbitrary_ok hw hr)
      (State.csLowCall_arbitrary_ok (s := s.vary es _) hw rfl)
  · exact .fail _ .csLowFail (State.csLowCall_arbitrary_fail hw hr)
      (State.csLowCall_arbitrary_fail (s := s.vary es _) hw rfl)
  · exact .silent (State.csLowCall_silent hr) (State.csLowCall_silent (s := s.vary es _) rfl)

theorem State.csHighCall_alike :
    CallAlike s r rest es r' rest' s.csHighCall (s.vary es (r' :: rest')).csHighCall := by
  rcases sameAnswer_cases hrr with ⟨rx, rx', rfl, rfl⟩ | ⟨rfl, rfl⟩ | ⟨rfl, rfl⟩
  · exact .ok rx rx' .high .csHigh .csHigh rfl rfl rfl (State.csHighCall_arbitrary_ok hw hr)
      (State.csHighCall_arbitrary_ok (s := s.vary es _) hw rfl)
  · exact .fail _ .csHighFail (State.csHighCall_arbitrary_fail hw hr)
      (State.csHighCall_arbitrary_fail (s := s.vary es _) hw rfl)
  · exact .silent (State.csHighCall_silent hr) (State.csHighCall_silent (s := s.vary es _) rfl)

theorem State.xferCall_alike (tx : Byte) :
    CallAlike s r rest es r' rest' (s.xferCall tx) ((s.vary es (r' :: rest')).xferCall tx) := by
  rcases sameAnswer_cases hrr with ⟨rx, rx', rfl, rfl⟩ | ⟨rfl, rfl⟩ | ⟨rfl, rfl⟩
  · exact .ok rx rx' s.csLine (.xfer tx rx) (.xfer tx rx') rfl rfl rfl (State.xferCall_arbitrary_ok hw tx hr)
      (State.xferCall_arbitrary_ok (s := s.vary es _) hw tx rfl)
  · exact .fail _ (.xferFail tx) (State.xferCall_arbitrary_fail hw tx hr)
      (State.xferCall_arbitrary_fail (s := s.vary es _) hw tx rfl)
  · exact .silent (State.xferCall_silent hr) (State.xferCall_silent (s := s.vary es _) rfl)

end

/-! ### One row in two runs -/

/-- One row of the sequencer's table in two runs: both make the same call and come to alike machines, or both wait. -/
inductive TickAlike (s : State) (rest : List Reply) (es : List Event) (rest' : List Reply) (k k' : Tick) : Prop where
  | moved (t : State) (e e' : Event) (same : sameCall e e') (trace : t.trace = s.trace ++ [e])
      (replies : t.replies = rest) (left : k = .moved t) (right : k' = .moved (t.vary (es ++ [e']) rest'))
  | waiting (left : k = .waiting { s with replies := rest }) (right : k' = .waiting (s.vary es rest'))

/-- What a row of the sequencer's table makes of its call. -/
def Called.row (ok : Byte → State → State) (fail : State → State) : Called → Tick
  | .ok rx t => .moved (ok rx t)
  | .fail t => .moved (fail t)
  | .silent t => .waiting t

/-- Two calls that come to the same but for the byte received make rows that come to the same, where the row discards
that byte or it is the same byte. -/
theorem CallAlike.row {s : State} {r r' : Reply} {rest rest' : List Reply} {es : List Event} {k k' : Called}
    {ok : Byte → State → State} {fail : State → State} (h : CallAlike s r rest es r' rest' k k')
    (hok : ∀ rx, Blind (ok rx)) (hfail : Blind fail)
    (hdiscard : ∀ rx rx' t, r = .ok rx → r' = .ok rx' → t.opr = s.opr → ok rx' t = ok rx t) :
    TickAlike s rest es rest' (k.row ok fail) (k'.row ok fail) := by
  cases h with
  | ok rx rx' line e e' answer answer' same left right =>
    rw [left, right]
    refine .moved _ e e' same ((hok rx).trace _) ((hok rx).replies _) rfl (congrArg Tick.moved ?_)
    rw [(hok rx').vary, hdiscard rx rx' (s.answered rest line e) answer answer' rfl]
  | fail line e left right =>
    rw [left, right]
    exact .moved _ e e (sameCall_refl e) (hfail.trace _) (hfail.replies _) rfl (congrArg Tick.moved (hfail.vary ..))
  | silent left right =>
    rw [left, right]
    exact .waiting rfl rfl

section
variable {s : State}

theorem tick_sel_called (hs : s.seq = .sel) :
    tick s = s.csLowCall.row (fun _ t => { t with seq := .cmd }) (State.abort .pinFailure) := by
  rw [tick_sel_row hs]; rfl

theorem tick_cmd_called (hs : s.seq = .cmd) :
    tick s = (s.xferCall s.opr).row (fun _ => State.afterCommand) (State.abort .transportFailure) := by
  rw [tick_cmd_row hs]; rfl

theorem tick_data_called (hs : s.seq = .data) :
    tick s = (s.xferCall (payloadByte (formatOf s.opr) s.dw s.wdr s.idx.toNat)).row State.afterData
      (State.abort .transportFailure) := by
  rw [tick_data_row hs]; rfl

theorem tick_desel_called (hs : s.seq = .desel) :
    tick s = s.csHighCall.row (fun _ => State.succeed) (State.finish (.err .pinFailure)) := by
  rw [tick_desel_row hs]; rfl

theorem tick_abort_called (hs : s.seq = .abort) :
    tick s = s.csHighCall.row (fun _ t => t.finish (.err t.err)) (fun t => t.finish (.err t.err)) := by
  rw [tick_abort_row hs]; rfl

end

/-- Two runs that take answers alike, and in the payload of a read the same answer, come to the same. -/
theorem tick_alike {s : State} {r r' : Reply} {rest : List Reply} (es : List Event) (rest' : List Reply)
    (hw : s.world = .arbitrary) (hs : s.seq ≠ .idle) (hr : s.replies = r :: rest) (hrr : sameAnswer r r')
    (hread : s.seq = .data → isRead (formatOf s.opr) = true → r = r') :
    TickAlike s rest es rest' (tick s) (tick (s.vary es (r' :: rest'))) := by
  cases hp : s.seq with
  | idle => exact absurd hp hs
  | sel =>
    rw [tick_sel_called hp, tick_sel_called (s := s.vary es _) hp]
    exact (State.csLowCall_alike es rest' hw hr hrr).row (fun _ => blind_phase .cmd) (blind_abort _)
      fun _ _ _ _ _ _ => rfl
  | cmd =>
    rw [tick_cmd_called hp, tick_cmd_called (s := s.vary es _) hp]
    exact (State.xferCall_alike es rest' hw hr hrr s.opr).row (fun _ => blind_afterCommand) (blind_abort _)
      fun _ _ _ _ _ _ => rfl
  | data =>
    rw [tick_data_called hp, tick_data_called (s := s.vary es _) hp]
    refine (State.xferCall_alike es rest' hw hr hrr _).row blind_afterData (blind_abort _) ?_
    rintro rx rx' t rfl rfl hopr
    cases hreads : isRead (formatOf s.opr) with
    | true => cases hread hp hreads; rfl
    | false => exact State.afterData_discards (hopr ▸ hreads) rx' rx
  | desel =>
    rw [tick_desel_called hp, tick_desel_called (s := s.vary es _) hp]
    exact (State.csHighCall_alike es rest' hw hr hrr).row (fun _ => blind_succeed) (blind_finish _)
      fun _ _ _ _ _ _ => rfl
  | abort =>
    rw [tick_abort_called hp, tick_abort_called (s := s.vary es _) hp]
    exact (State.csHighCall_alike es rest' hw hr hrr).row (fun _ => blind_finish_err) blind_finish_err
      fun _ _ _ _ _ _ => rfl

/-- A draw is an answer like one of the script (log 2). -/
theorem tick_drawn {s : State} (hs : s.seq ≠ .idle) (h : s.replies = []) :
    tick s = tick (s.advance.script [Config.freeReply s.draws]) := by
  have hnext : s.nextReply = (s.advance.script [Config.freeReply s.draws]).nextReply := by
    rw [State.nextReply_drawn h, State.nextReply_script, State.script, ← h]
    rfl
  have hlow : s.csLowCall = (s.advance.script [Config.freeReply s.draws]).csLowCall := by
    rw [State.csLowCall, State.csLowCall, hnext]
  have hhigh : s.csHighCall = (s.advance.script [Config.freeReply s.draws]).csHighCall := by
    rw [State.csHighCall, State.csHighCall, hnext]
  have hxfer (tx : Byte) : s.xferCall tx = (s.advance.script [Config.freeReply s.draws]).xferCall tx := by
    rw [State.xferCall, State.xferCall, hnext]
  cases hp : s.seq with
  | idle => exact absurd hp hs
  | sel => rw [tick_sel_called hp, tick_sel_called (s := s.advance.script _) hp, hlow]
  | cmd => rw [tick_cmd_called hp, tick_cmd_called (s := s.advance.script _) hp, hxfer]; rfl
  | data => rw [tick_data_called hp, tick_data_called (s := s.advance.script _) hp, hxfer]; rfl
  | desel => rw [tick_desel_called hp, tick_desel_called (s := s.advance.script _) hp, hhigh]
  | abort => rw [tick_abort_called hp, tick_abort_called (s := s.advance.script _) hp, hhigh]

/-! ### Two runs -/

/-- The scripts of `s` and of a run with script `rs` agree in every byte that a read still receives as payload
(30_encoding R86). -/
def State.AgreesInPayload (rs : List Reply) (s : State) : Prop :=
  isRead (formatOf s.opr) = true →
    match s.seq with
    | .sel => s.replies.drop 2 = rs.drop 2
    | .cmd => s.replies.drop 1 = rs.drop 1
    | .data => s.replies = rs
    | .desel | .abort | .idle => True

/-- A row takes one answer from each script and leaves them in agreement. -/
theorem Row.agreesInPayload {s t : State} (row : Row s t) {r r' : Reply} {rest rest' : List Reply}
    (hr : s.replies = r :: rest) (htr : t.replies = rest) (h : s.AgreesInPayload (r' :: rest')) :
    t.AgreesInPayload rest' := by
  intro hread
  obtain ⟨hsel, hcmd, hdata⟩ := row.phases
  have before (hbusy : t.seq ≠ .idle) := h (by rw [← row.opr hbusy]; exact hread)
  cases hp : t.seq with
  | sel => exact absurd hp hsel
  | cmd =>
    have hdrop := before (by simp [hp])
    rw [hcmd hp, hr] at hdrop
    simpa [htr] using hdrop
  | data =>
    have hdrop := before (by simp [hp])
    rcases hdata hp with hs | hs <;> rw [hs, hr] at hdrop
    · simpa [htr] using hdrop
    · simpa [htr] using (List.cons.inj hdrop).2
  | desel | abort | idle => trivial

/-- The next row in two runs, whether the answers are still in the scripts or drawn: `u` is the machine at `s` with
the answer it takes in its script. -/
structure NextAnswers (s u : State) (es : List Event) (rs : List Reply) (r r' : Reply) (rest rest' : List Reply) :
    Prop where
  same : SameEngine s u
  trace : u.trace = s.trace
  replies : u.replies = r :: rest
  answer : sameAnswer r r'
  script : List.Forall₂ sameAnswer rest rest'
  agree : u.AgreesInPayload (r' :: rest')
  left : tick s = tick u
  right : tick (s.vary es rs) = tick (u.vary es (r' :: rest'))

theorem exists_nextAnswers {s : State} {rs : List Reply} (es : List Event) (hs : s.seq ≠ .idle)
    (hrs : List.Forall₂ sameAnswer s.replies rs) (hagree : s.AgreesInPayload rs) :
    ∃ u r r' rest rest', NextAnswers s u es rs r r' rest rest' := by
  cases hr : s.replies with
  | cons r rest =>
    rw [hr] at hrs
    cases hrs with
    | cons answer script =>
      exact ⟨s, r, _, rest, _, ⟨rfl, rfl, rfl, rfl, rfl, rfl, rfl, rfl, rfl, rfl, rfl, rfl⟩, rfl, hr, answer, script,
        hagree, rfl, rfl⟩
  | nil =>
    rw [hr] at hrs
    cases hrs
    refine ⟨s.advance.script [Config.freeReply s.draws], _, Config.freeReply s.draws, [], [],
      ⟨rfl, rfl, rfl, rfl, rfl, rfl, rfl, rfl, rfl, rfl, rfl, rfl⟩, rfl, rfl, sameAnswer_refl _, .nil, fun _ => ?_,
      tick_drawn hs hr, tick_drawn (s := s.vary es []) hs rfl⟩
    split <;> trivial

/-- A machine like `s`, with calls alike in its trace. -/
def Alike (s t : State) : Prop := ∃ es rs, t = s.vary es rs ∧ List.Forall₂ sameCall s.trace es

theorem Alike.observed {s t : State} (h : Alike s t) :
    s.seq = t.seq ∧ s.dw = t.dw ∧ s.result = t.result ∧ List.Forall₂ sameCall s.trace t.trace := by
  obtain ⟨es, rs, rfl, hcalls⟩ := h
  exact ⟨rfl, rfl, rfl, hcalls⟩

/-- Two runs whose answers are alike, and in the payload of a read the same, stay alike. -/
theorem runSequencer_alike (n : Nat) : ∀ (s : State) (es : List Event) (rs : List Reply), s.world = .arbitrary →
    List.Forall₂ sameCall s.trace es → List.Forall₂ sameAnswer s.replies rs → s.AgreesInPayload rs →
    Alike (runSequencer n s) (runSequencer n (s.vary es rs)) := by
  induction n with
  | zero => exact fun s es rs _ hes _ _ => ⟨es, rs, rfl, hes⟩
  | succ n ih =>
    intro s es rs hw hes hrs hagree
    by_cases hs : s.seq = .idle
    · rw [runSequencer_idle _ hs, runSequencer_idle _ (s := s.vary es rs) hs]
      exact ⟨es, rs, rfl, hes⟩
    · obtain ⟨u, r, r', rest, rest', next⟩ := exists_nextAnswers es hs hrs hagree
      have huw : u.world = .arbitrary := next.same.world.trans hw
      have hread (hdata : u.seq = .data) (hreads : isRead (formatOf u.opr) = true) : r = r' := by
        have heq := next.agree hreads
        rw [hdata, next.replies] at heq
        exact (List.cons.inj heq).1
      rw [← next.trace] at hes
      cases tick_alike es rest' huw (next.same.seq ▸ hs) next.replies next.answer hread with
      | moved t e e' same trace replies left right =>
        have row := tick_row left
        rw [runSequencer_moved hs (next.left.trans left),
          runSequencer_moved (s := s.vary es rs) hs (next.right.trans right)]
        refine ih t (es ++ [e']) rest' (row.hostSide.world.trans huw) ?_ (replies ▸ next.script)
          (row.agreesInPayload next.replies replies next.agree)
        rw [trace]
        exact List.rel_append hes (.cons same .nil)
      | waiting left right =>
        rw [runSequencer_waiting hs (next.left.trans left),
          runSequencer_waiting (s := s.vary es rs) hs (next.right.trans right)]
        exact ⟨es, rest', rfl, hes⟩

/-- A request that reads an invalid `DW` is refused (60_exceptions R173). -/
theorem State.request_refused {code : Byte} {w : Word} {s : State} (hs : s.seq = .idle)
    (hreads : readsWidth (formatOf code) = true) (hw : widthValid s.dw = false) :
    s.request code w = s.answer (.err .invalidWidthState) := by
  rcases s.request_cases code w with ⟨hbusy, -⟩ | ⟨-, -, -, heq⟩ | ⟨-, hvalid, -⟩
  · exact absurd hs hbusy
  · exact heq
  · rw [hvalid hreads] at hw
    cases hw

/-- A request in two runs: refused it takes no answer; accepted it starts at the same state but for the script. -/
theorem State.request_alike {code : Byte} {s : State} {rs rs' : List Reply} (w : Word) (hs : s.seq = .idle)
    (hw : s.world = .arbitrary) (hrs : List.Forall₂ sameAnswer rs rs')
    (hread : isRead (formatOf code) = true → rs.drop 2 = rs'.drop 2) :
    Alike ((s.script rs).request code w) ((s.script rs').request code w) := by
  have hcalls : List.Forall₂ sameCall s.trace s.trace := List.forall₂_same.2 fun e _ => sameCall_refl e
  rcases (s.script rs).request_cases code w with ⟨hbusy, -⟩ | ⟨-, hreads, hinvalid, heq⟩ | ⟨-, hvalid, heq⟩
  · exact absurd hs hbusy
  · rw [heq, State.request_refused (s := s.script rs') hs hreads hinvalid]
    exact ⟨s.trace, rs', rfl, hcalls⟩
  · rw [heq, State.request_accepted (s := s.script rs') hs hvalid]
    exact runSequencer_alike Config.callLimit ((s.script rs).accept code w) s.trace rs' hw hcalls hrs hread

/-- Settles O41: a bus operation is one request, with the same operand in both runs. -/
theorem discardedBytesDoNotMatter : Obligations.DiscardedBytesDoNotMatter := by
  intro i code s t t' rs rs' hi hs hw hrs hread ht ht'
  cases (exec_request hi (s.script rs)).symm.trans ht
  cases (exec_request hi (s.script rs')).symm.trans ht'
  exact (State.request_alike (latchedOperand s.wdata i) hs hw hrs hread).observed

end Sys2Proof.Machine
end

section
/-!
PROOFS. An operation with a payload, every call answered ok (41_read R122, R123; 30_encoding R84, R90): its frame in
every environment, and the five reads.
-/

namespace Sys2Proof.Machine

/-! ### The frame's opening -/

/-- `CsLow()` and the command byte, answered ok, bring an operation with a payload to its first byte. -/
theorem exec_payload_opened {i : Instr} {code a b : Byte} {s : State} {rest : List Reply}
    (hi : commandByte i = some code) (hs : s.seq = .idle) (hw : usesWidth i = true → widthValid s.dw = true)
    (hpay : payloadLength (formatOf code) s.dw ≠ 0) (hreplies : s.replies = .ok a :: .ok b :: rest) :
    ∃ t, exec i s = .next (runSequencer 5 t) ∧ SameOperation (s.accept code (latchedOperand s.wdata i)) t ∧
      t.coherent = true ∧ t.seq = .data ∧ t.idx.toNat = 0 ∧ (isRead (formatOf code) = true → t.acc = 0) ∧
      t.replies = rest ∧ t.trace = s.trace ++ [.csLow, .xfer code b] ∧
      (s.world = .arbitrary → t.dev = s.dev) := by
  have hc : (s.accept code (latchedOperand s.wdata i)).coherent = true :=
    State.accept_coherent hi (readsWidth_commandByte hi ▸ hw) _
  obtain ⟨u, hu, sameU, hus, hur, hutrace, -, huarb, huref⟩ :=
    tick_sel_ok (State.accept_seq code (latchedOperand s.wdata i) s) hreplies
  obtain ⟨t, ht, sameT, hphase, htr, httrace, -, htarb, -⟩ := tick_cmd_ok hus hur
  have hopr : u.opr = code := sameU.opr
  have hbyte : u.received u.opr b = b := by
    cases hworld : s.world with
    | arbitrary => exact State.received_arbitrary (sameU.world.trans hworld) _ _
    | reference =>
      rw [State.received_reference (sameU.world.trans hworld), huref hworld, Device.exchange_selected]
  rw [sameU.payloadLen, hopr] at hphase
  obtain ⟨hts, hidx, hacc⟩ := (hphase.resolve_left fun h => hpay h.1).2
  refine ⟨t, ?_, sameU.trans sameT, ?_, hts, congrArg BitVec.toNat hidx, hacc, htr, ?_, fun harb =>
    (htarb (sameU.world.trans harb)).trans (huarb harb)⟩
  · rw [exec_accepted hi hs hw, Config.callLimit, runSequencer_moved (by simp) hu,
      runSequencer_moved (by simp [hus]) ht]
  · exact (tick_row ht).coherent (by simp [hus]) ((tick_row hu).coherent (by simp) hc)
  · rw [httrace, hutrace, hbyte, hopr]
    simp

/-! ### The payload -/

/-- From `s` in `DATA` to `t`, payload transfers answered ok with `rxs`, in which the engine received `rs`. -/
structure PayloadAnswered (s t : State) (rest : List Reply) (rxs rs : List Byte) : Prop where
  same : SameOperation s t
  coherent : t.coherent = true
  replies : t.replies = rest
  length : rs.length = rxs.length
  acc : isRead (formatOf s.opr) = true → t.acc = rs.foldl accStep s.acc
  trace : t.trace = s.trace ++ List.zipWith .xfer (s.payloadLeft s.idx.toNat) rs
  arbitrary : s.world = .arbitrary → rs = rxs ∧ t.dev = s.dev

/-- One payload transfer answered ok. -/
theorem tick_payload_ok {s : State} {rx : Byte} {rest : List Reply} (hs : s.seq = .data) (hc : s.coherent = true)
    (hreplies : s.replies = .ok rx :: rest) :
    ∃ t r, tick s = .moved t ∧ PayloadAnswered s t rest [rx] [r] ∧
      ((s.idx.toNat + 1 < s.payloadLen ∧ t.seq = .data ∧ t.idx.toNat = s.idx.toNat + 1) ∨
        (¬ s.idx.toNat + 1 < s.payloadLen ∧ t.seq = .desel)) := by
  have hbusy : s.seq ≠ .idle := by simp [hs]
  obtain ⟨t, moved, same, hphase, acc, replies, trace, -, dev, -⟩ := tick_data_ok hs hreplies rfl
  refine ⟨t, s.received (payloadByte (formatOf s.opr) s.dw s.wdr s.idx.toNat) rx, moved,
    ⟨same, (tick_row moved).coherent hbusy hc, replies, rfl, fun hread => ?_, ?_, fun harb => ?_⟩,
    hphase.imp_left fun ⟨hmore, seq, idx⟩ => ⟨hmore, seq, ?_⟩⟩
  · rw [acc, if_pos hread]
    rfl
  · rw [trace, State.payloadLeft_cons ((s.coherent_iff.1 hc).2 hs), List.zipWith_cons_cons, List.zipWith_nil_right]
  · exact ⟨by rw [State.received_arbitrary harb], dev harb⟩
  · rw [idx, State.idx_succ_toNat hc hbusy hmore]

/-- One transfer before further ones. -/
theorem PayloadAnswered.cons {s t u : State} {rest rest' : List Reply} {rx r : Byte} {rxs rs : List Byte}
    (h : PayloadAnswered s t rest [rx] [r]) (k : PayloadAnswered t u rest' rxs rs)
    (hidx : t.idx.toNat = s.idx.toNat + 1) (hlt : s.idx.toNat < s.payloadLen) :
    PayloadAnswered s u rest' (rx :: rxs) (r :: rs) where
  same := h.same.trans k.same
  coherent := k.coherent
  replies := k.replies
  length := congrArg (· + 1) k.length
  acc hread := by
    rw [k.acc (h.same.opr ▸ hread), h.acc hread]
    rfl
  trace := by
    rw [k.trace, h.trace, h.same.payloadLeft, hidx, State.payloadLeft_cons hlt]
    simp
  arbitrary harb := by
    obtain ⟨hr, hdev⟩ := h.arbitrary harb
    obtain ⟨hrs, hdev'⟩ := k.arbitrary (h.same.world.trans harb)
    cases hr
    exact ⟨congrArg _ hrs, hdev'.trans hdev⟩

/-- The rest of the payload, every byte answered ok, brings the sequencer to the closing `CsHigh()`. -/
theorem runSequencer_payload_ok (rest : List Reply) (n : Nat) (rxs : List Byte) : ∀ (rx : Byte) (s : State),
    s.seq = .data → s.coherent = true → s.idx.toNat + (rx :: rxs).length = s.payloadLen →
    s.replies = (rx :: rxs).map .ok ++ rest →
    ∃ t rs, runSequencer ((rx :: rxs).length + n) s = runSequencer n t ∧ t.seq = .desel ∧
      PayloadAnswered s t rest (rx :: rxs) rs := by
  induction rxs with
  | nil =>
    intro rx s hs hc hlen hreplies
    obtain ⟨t, r, moved, answered, hphase⟩ := tick_payload_ok hs hc hreplies
    rw [List.length_singleton] at hlen
    have hseq : t.seq = .desel := hphase.elim (fun h => absurd h.1 (by omega)) And.right
    exact ⟨t, [r], by rw [List.length_singleton, Nat.add_comm, runSequencer_moved (by simp [hs]) moved], hseq,
      answered⟩
  | cons rx' rxs ih =>
    intro rx s hs hc hlen hreplies
    simp only [List.length_cons] at hlen ih
    obtain ⟨u, r, moved, answered, hphase⟩ := tick_payload_ok hs hc hreplies
    obtain ⟨hseq, hidx⟩ : u.seq = .data ∧ u.idx.toNat = s.idx.toNat + 1 :=
      hphase.elim And.right fun h => absurd (by omega) h.1
    obtain ⟨t, rs, hrun, hts, answered'⟩ :=
      ih rx' u hseq answered.coherent (by rw [answered.same.payloadLen]; omega) answered.replies
    refine ⟨t, r :: rs, ?_, hts, answered.cons answered' hidx (by omega)⟩
    rw [List.length_cons, List.length_cons, Nat.add_right_comm, runSequencer_moved (by simp [hs]) moved, hrun]

/-! ### The whole frame -/

/-- The closing `CsHigh()` delivers the value of the payload (41_read R122, R123): a read has it in `ACC`, and no other
result depends on what was received. -/
theorem okResult_payload {i : Instr} {code : Byte} (hi : commandByte i = some code) {dw : Width} {acc : Word}
    {payload : List Byte} (hlen : payload.length = payloadLength (formatOf code) dw)
    (hacc : isRead (formatOf code) = true → acc = assemble payload) :
    okResult (formatOf code) acc = valueOf i payload := by
  rw [← okResult_assemble hi hlen]
  cases hread : isRead (formatOf code) with
  | true => rw [hacc hread]
  | false => exact okResult_of_not_isRead hread _ _

/-- An operation with a payload, all its calls answered ok, in every environment: the wire bytes go out in one frame,
and the result and the width are those of the bytes received. -/
theorem exec_payload_ok {i : Instr} {code a b c : Byte} {s : State} {rxs : List Byte} {rest : List Reply}
    (hi : commandByte i = some code) (hs : s.seq = .idle) (hw : usesWidth i = true → widthValid s.dw = true)
    (hne : rxs ≠ []) (hlen : rxs.length = payloadLength (formatOf code) s.dw)
    (hreplies : s.replies = .ok a :: .ok b :: (rxs.map .ok ++ .ok c :: rest)) :
    ∃ t rs, exec i s = .next t ∧ rs.length = rxs.length ∧ FrameEnded s t rest ∧
      t.result = some (frameResult i (.ok (b :: rs))) ∧ t.dw = widthAfter i s.dw (.ok (b :: rs)) ∧
      t.trace = s.trace ++ (.csLow :: (List.zipWith .xfer (wireBytes s.dw i) (b :: rs) ++ [.csHigh])) ∧
      (s.world = .arbitrary → rs = rxs ∧ t.dev = s.dev) := by
  obtain ⟨rx, rxs, rfl⟩ := List.exists_cons_of_ne_nil hne
  obtain ⟨u, hu, sameU, huc, hus, hidx, hacc, hur, hutrace, huarb⟩ :=
    exec_payload_opened hi hs hw (hlen ▸ Nat.succ_ne_zero _) hreplies
  have hopr : u.opr = code := sameU.opr
  have hpay : u.payloadLen = payloadLength (formatOf code) s.dw := sameU.payloadLen
  have hfour : (rx :: rxs).length ≤ 4 := hlen ▸ hpay ▸ u.payloadLen_le_four huc (by simp [hus])
  obtain ⟨v, rs, hrun, hvs, answered⟩ :=
    runSequencer_payload_ok (.ok c :: rest) (4 - (rx :: rxs).length + 1) rxs rx u hus huc
      (by rw [hidx, Nat.zero_add, hlen, hpay]) hur
  rw [show (rx :: rxs).length + (4 - (rx :: rxs).length + 1) = 5 by omega] at hrun
  obtain ⟨t, ht, hts, hdw, hresult, hlext, hinbox, hwdata, hworld, htr, httrace, hline, htarb, -⟩ :=
    tick_desel_ok hvs answered.replies
  have same := sameU.trans answered.same
  have hoprV : v.opr = code := same.opr
  have hdwV : v.dw = s.dw := same.dw
  have hwdrV : v.wdr = latchedOperand s.wdata i := same.wdr
  refine ⟨t, rs, ?_, answered.length, ⟨hts, (s.accept_hostSide _ _).trans (same.hostSide.trans
    ⟨hinbox, hwdata, hlext, hworld⟩), hline, htr⟩, ?_, ?_, ?_, fun harb => ?_⟩
  · rw [hu, hrun, runSequencer_ended (by simp [hvs]) ht hts]
  · rw [hresult, hoprV, okResult_payload hi (answered.length.trans hlen) fun hread => ?_]
    · rfl
    · rw [answered.acc (hopr ▸ hread), hacc hread]
      rfl
  · rw [hdw, hoprV, hwdrV, hdwV, widthAfter_ok hi s.dw s.wdata]
  · have hsent : u.payloadLeft u.idx.toNat = payloadBytes (formatOf code) s.dw (latchedOperand s.wdata i) := by
      rw [hidx, sameU.payloadLeft]
      rfl
    rw [httrace, answered.trace, hutrace, hsent, wireBytes_eq hi s.dw s.wdata]
    simp
  · obtain ⟨hrs, hdev⟩ := answered.arbitrary (sameU.world.trans harb)
    exact ⟨hrs, (htarb (same.world.trans harb)).trans (hdev.trans (huarb harb))⟩

/-! ### The reads -/

/-- Where the byte sent is always the same, the transfers are told by the bytes received. -/
theorem zipWith_xfer_replicate (tx : Byte) (rs : List Byte) :
    List.zipWith Event.xfer (List.replicate rs.length tx) rs = rs.map (.xfer tx) := by
  induction rs with
  | nil => rfl
  | cons r rs ih => exact congrArg _ ih

/-- Settles O25: each of the three reads has a payload of one byte, at every `DW`. -/
theorem byteReadsComplete : Obligations.ByteReadsComplete := by
  intro s a b r c rest i code hs hreplies hmem
  simp only [List.mem_cons, List.not_mem_nil, or_false, Prod.mk.injEq] at hmem
  obtain ⟨hi, huses, hlen, hwire, hvalue, hwidth⟩ : commandByte i = some code ∧ usesWidth i = false ∧
      payloadLength (formatOf code) s.dw = 1 ∧ wireBytes s.dw i = [code, Config.dummyByte] ∧
      (∀ rx, frameResult i (.ok [b, rx]) = .byte rx) ∧ ∀ received, widthAfter i s.dw (.ok received) = s.dw := by
    rcases hmem with ⟨rfl, rfl⟩ | ⟨rfl, rfl⟩ | ⟨rfl, rfl⟩ <;>
      exact ⟨rfl, rfl, rfl, rfl, fun _ => rfl, fun _ => rfl⟩
  obtain ⟨t, rs, ht, hrs, hend, hresult, hdw, htrace, harb⟩ :=
    exec_payload_ok (rxs := [r]) hi hs (by simp [huses]) (by simp) hlen.symm hreplies
  obtain ⟨rx, rfl⟩ := List.length_eq_one_iff.1 hrs
  rw [hvalue] at hresult
  rw [hwidth] at hdw
  rw [hwire] at htrace
  refine ⟨t, rx, ht, hend.idle, hresult, htrace, hdw, hend.line, hend.replies, hend.host, fun hworld => ?_⟩
  exact (harb hworld).imp_left List.singleton_inj.1

/-- Settles O26: each of the two reads has a payload of `DW` dummy bytes. -/
theorem wordReadsComplete : Obligations.WordReadsComplete := by
  intro s a b c rxs rest i code hs hw hlen hreplies hmem
  simp only [List.mem_cons, List.not_mem_nil, or_false, Prod.mk.injEq] at hmem
  obtain ⟨hi, hpay, hwire, hvalue, hwidth⟩ : commandByte i = some code ∧
      payloadLength (formatOf code) s.dw = s.dw.toNat ∧
      wireBytes s.dw i = code :: List.replicate s.dw.toNat Config.dummyByte ∧
      (∀ rs, frameResult i (.ok (b :: rs)) = .word (assemble rs)) ∧
      ∀ received, widthAfter i s.dw (.ok received) = s.dw := by
    rcases hmem with ⟨rfl, rfl⟩ | ⟨rfl, rfl⟩ <;> exact ⟨rfl, rfl, rfl, fun _ => rfl, fun _ => rfl⟩
  have hne : rxs ≠ [] := List.ne_nil_of_length_pos (hlen ▸ ((widthValid_iff s.dw).1 hw).1)
  obtain ⟨t, rs, ht, hrs, hend, hresult, hdw, htrace, harb⟩ :=
    exec_payload_ok hi hs (fun _ => hw) hne (hlen.trans hpay.symm) hreplies
  have hrs : rs.length = s.dw.toNat := hrs.trans hlen
  rw [hvalue] at hresult
  rw [hwidth] at hdw
  rw [hwire, List.zipWith_cons_cons, ← hrs, zipWith_xfer_replicate] at htrace
  exact ⟨t, rs, ht, hend.idle, hrs, hresult, htrace, hdw, hend.line, hend.replies, hend.host, harb⟩

end Sys2Proof.Machine
end

section
/-!
PROOFS. The writes (42_write R136 to R140), every call answered ok, in every environment.
-/

namespace Sys2Proof.Machine

/-! ### The width formula -/

/-- The mask of the width formula takes bits `[1:0]` (42_write R138). -/
theorem and_three_toNat (value : Byte) : (value &&& 0x03#8).toNat = (value.extractLsb' 0 2).toNat := by
  rw [BitVec.toNat_and, BitVec.extractLsb'_toNat, Nat.shiftRight_zero]
  exact Nat.and_two_pow_sub_one_eq_mod value.toNat 2

/-- Settles O21: the formula is one of bits `[1:0]`, so a value with the same two bits selects the same width. -/
theorem widthFormula : Obligations.WidthFormula := by
  have hformula (value : Byte) : (widthOfMdr1 value).toNat = 4 - (value.extractLsb' 0 2).toNat := by
    rw [widthOfMdr1_toNat, and_three_toNat]
  refine fun value => ⟨hformula value, widthOfMdr1_valid value, fun other hbits => BitVec.eq_of_toNat_eq ?_⟩
  rw [hformula, hformula, hbits]

/-! ### The frames -/

/-- A mode register write, its four calls answered ok: its byte goes out as it is, at every `DW` (42_write R136,
R137), and what comes back is discarded. -/
theorem exec_byte_write {i : Instr} {code value a b r c : Byte} {s : State} {rest : List Reply}
    (hi : commandByte i = some code) (hv : i = .wrMdr0 value ∨ i = .wrMdr1 value) (hs : s.seq = .idle)
    (hreplies : s.replies = .ok a :: .ok b :: .ok r :: .ok c :: rest) :
    ∃ t rx, exec i s = .next t ∧ FrameEnded s t rest ∧ t.result = some .done ∧
      t.trace = s.trace ++ [.csLow, .xfer code b, .xfer value rx, .csHigh] ∧
      t.dw = widthAfter i s.dw (.ok [b, rx]) ∧ (s.world = .arbitrary → t.dev = s.dev) := by
  have hlen : payloadLength (formatOf code) s.dw = 1 := by rw [formatOf_byteWrite hi hv]; rfl
  obtain ⟨huses, hwire, hvalue⟩ : usesWidth i = false ∧ wireBytes s.dw i = [code, value] ∧
      ∀ received, frameResult i (.ok received) = .done := by
    rcases hv with rfl | rfl <;> cases hi <;> exact ⟨rfl, rfl, fun _ => rfl⟩
  obtain ⟨t, rs, ht, hrs, hend, hresult, hdw, htrace, harb⟩ :=
    exec_payload_ok (rxs := [r]) hi hs (by simp [huses]) (by simp) hlen.symm hreplies
  obtain ⟨rx, rfl⟩ := List.length_eq_one_iff.1 hrs
  rw [hvalue] at hresult
  rw [hwire] at htrace
  exact ⟨t, rx, ht, hend, hresult, htrace, hdw, fun hworld => (harb hworld).2⟩

/-- Settles O27: `WR_MDR0` is a mode register write that leaves `DW`. -/
theorem writeMdr0Completes : Obligations.WriteMdr0Completes := by
  intro s value a b r c rest hs hreplies
  obtain ⟨t, rx, ht, hend, hresult, htrace, hdw, harb⟩ := exec_byte_write rfl (.inl rfl) hs hreplies
  exact ⟨t, rx, ht, hend.idle, hresult, htrace, hdw, hend.line, hend.replies, hend.host, harb⟩

/-- Settles O28: `WR_MDR1` is a mode register write that sets `DW` from its value by the width formula. -/
theorem writeMdr1SetsWidth : Obligations.WriteMdr1SetsWidth := by
  intro s value a b r c rest hs hreplies
  obtain ⟨t, rx, ht, hend, hresult, htrace, hdw, harb⟩ := exec_byte_write rfl (.inr rfl) hs hreplies
  have hwidth : t.dw.toNat = 4 - (value &&& 0x03#8).toNat := by
    rw [← widthOfMdr1_toNat]
    exact congrArg BitVec.toNat hdw
  exact ⟨t, rx, ht, hend.idle, hresult, htrace, hwidth, hend.line, hend.replies, hend.host, harb⟩

/-- Settles O29: `WR_DTR` has a payload of `DW` bytes, those of its operand's low end. -/
theorem writeDtrCompletes : Obligations.WriteDtrCompletes := by
  intro s v a b c rxs rest hs hw hlen hreplies
  have hne : rxs ≠ [] := List.ne_nil_of_length_pos (hlen ▸ ((widthValid_iff s.dw).1 hw).1)
  obtain ⟨t, rs, ht, hrs, hend, hresult, hdw, htrace, harb⟩ :=
    exec_payload_ok (i := .wrDtr v) (code := 0x98#8) rfl hs (fun _ => hw) hne hlen hreplies
  have hwire : wireBytes s.dw (.wrDtr v) = 0x98#8 :: payloadBytes .writeWord s.dw v :=
    wireBytes_eq (i := .wrDtr v) rfl s.dw s.wdata
  rw [hwire, List.zipWith_cons_cons] at htrace
  exact ⟨t, rs, ht, hend.idle, hresult, hrs.trans hlen, htrace, hdw, hend.line, hend.replies, hend.host,
    fun hworld => (harb hworld).2⟩

end Sys2Proof.Machine
end

section
/-!
PROOFS. Sign extension (44_sign_extend R160 to R165) and the operations that read an invalid `DW` (60_exceptions
R173). The sign-extension mux is one function of the width, the closed form of its mask included, and everything
else is read off its bits.
-/

namespace Sys2Proof.Machine

/-! ### The sign bit and the masks -/

/-- Shifting down and masking one bit is the test of that bit (44_sign_extend R161). -/
theorem signBit_eq_getLsbD (v : Word) (w : Nat) : signBit v w = v.getLsbD (8 * w - 1) := by
  rw [signBit, BitVec.and_one_eq_setWidth_ofBool_getLsbD, BitVec.getLsbD_ushiftRight, Nat.add_zero]
  cases v.getLsbD (8 * w - 1) <;> rfl

/-- The widths that have a mask, and its closed form (44_sign_extend R162). -/
theorem signMask_of_partial_width {w : Nat} (hpos : 1 ≤ w) (hle : w ≤ 3) :
    signMask w = some (0xFFFFFFFF#32 <<< (8 * w)) := by
  interval_cases w <;> rfl

theorem signMask_of_no_partial_width {w : Nat} (h : w = 0 ∨ 4 ≤ w) : signMask w = none := by
  rcases h with rfl | h
  · rfl
  · obtain ⟨k, rfl⟩ := Nat.exists_eq_add_of_le' h
    rfl

/-- Settles O18: a width either has the mask of the closed form or has none. -/
theorem signMasks : Obligations.SignMasks := by
  refine ⟨rfl, rfl, rfl, fun w m hm => ?_, fun w => signMask_of_no_partial_width⟩
  by_cases hw : 1 ≤ w ∧ w ≤ 3
  · exact Option.some.inj (hm.symm.trans (signMask_of_partial_width hw.1 hw.2))
  · rw [signMask_of_no_partial_width (by omega)] at hm
    cases hm

/-! ### The mux as one function of the width -/

/-- The word that `LEXT` returns at a legal width `w`. At width 4 the mask is zero, so that the case without a mask
needs no clause of its own. -/
def extendedWord (w : Nat) (v : Word) : Word :=
  if v.getLsbD (8 * w - 1) then v ||| 0xFFFFFFFF#32 <<< (8 * w) else v

theorem extendedWord_four (v : Word) : extendedWord 4 v = v := by
  have hmask : v ||| 0xFFFFFFFF#32 <<< (8 * 4) = v := BitVec.or_zero
  rw [extendedWord, hmask, ite_self]

theorem signExtend_of_valid {dw : Width} (hw : widthValid dw = true) (v : Word) :
    signExtend dw v = .word (extendedWord dw.toNat v) := by
  obtain ⟨hpos, hfour⟩ := (widthValid_iff dw).1 hw
  by_cases hle : dw.toNat ≤ 3
  · rw [extendedWord, apply_ite Result.word]
    simp only [signExtend, hw, if_true, signMask_of_partial_width hpos hle, signBit_eq_getLsbD]
  · have hdw : dw.toNat = 4 := by omega
    rw [hdw, extendedWord_four]
    simp only [signExtend, hw, if_true, hdw, signMask_of_no_partial_width (.inr (Nat.le_refl 4))]

/-- The width is tested before anything else (44_sign_extend R165). -/
theorem signExtend_of_invalid {dw : Width} (hw : widthValid dw = false) (v : Word) :
    signExtend dw v = .err .invalidWidthState := by
  simp [signExtend, hw]

theorem signExtend_eq_word_iff {dw : Width} (hw : widthValid dw = true) (v x : Word) :
    signExtend dw v = .word x ↔ extendedWord dw.toNat v = x := by
  rw [signExtend_of_valid hw, Result.word.injEq]

theorem widthValid_of_word {dw : Width} {v x : Word} (h : signExtend dw v = .word x) : widthValid dw = true := by
  by_contra hw
  cases (signExtend_of_invalid (Bool.eq_false_iff.2 hw) v).symm.trans h

/-! ### Its bits -/

theorem ones_shiftLeft_getLsbD {k n : Nat} (hn : n < 32) : (0xFFFFFFFF#32 <<< k).getLsbD n = decide (k ≤ n) := by
  have hones : 0xFFFFFFFF#32 = BitVec.allOnes 32 := rfl
  rw [hones, BitVec.getLsbD_shiftLeft, BitVec.getLsbD_allOnes]
  by_cases h : k ≤ n
  · have hlt : n - k < 32 := by omega
    simp [hn, h, hlt]
  · simp [h]

/-- `LEXT` sets the bits above the width where the sign bit is set, and no other (44_sign_extend R161). -/
theorem extendedWord_getLsbD (w : Nat) (v : Word) {n : Nat} (hn : n < 32) :
    (extendedWord w v).getLsbD n = (v.getLsbD n || (v.getLsbD (8 * w - 1) && decide (8 * w ≤ n))) := by
  cases hs : v.getLsbD (8 * w - 1)
  · simp [extendedWord, hs]
  · simp [extendedWord, hs, ones_shiftLeft_getLsbD hn]

theorem extendedWord_getLsbD_low {w n : Nat} (v : Word) (hn : n < 8 * w) :
    (extendedWord w v).getLsbD n = v.getLsbD n := by
  by_cases h32 : n < 32
  · simp [extendedWord_getLsbD w v h32, hn]
  · rw [BitVec.getLsbD_of_ge _ _ (by omega), BitVec.getLsbD_of_ge _ _ (by omega)]

/-- The sign bit is below the width, so a second `LEXT` tests the same bit and sets the same bits
(44_sign_extend R164 (a)). -/
theorem extendedWord_idem {w : Nat} (hw : 1 ≤ w) (v : Word) :
    extendedWord w (extendedWord w v) = extendedWord w v := by
  refine BitVec.eq_of_getLsbD_eq fun n hn => ?_
  have hsign : (extendedWord w v).getLsbD (8 * w - 1) = v.getLsbD (8 * w - 1) :=
    extendedWord_getLsbD_low v (by omega)
  rw [extendedWord_getLsbD w (extendedWord w v) hn, hsign, extendedWord_getLsbD w v hn, Bool.or_assoc, Bool.or_self]

/-- Every set bit of the operand is kept (44_sign_extend R164 (c)). -/
theorem extendedWord_or_self (w : Nat) (v : Word) : extendedWord w v ||| v = extendedWord w v := by
  refine BitVec.eq_of_getLsbD_eq fun n hn => ?_
  rw [BitVec.getLsbD_or, extendedWord_getLsbD w v hn, Bool.or_right_comm, Bool.or_self]

/-! ### The function of `LEXT` -/

theorem exec_lext_of_valid {s : State} (hw : widthValid s.dw = true) (v : Word) :
    exec (.lext v) s = .next (State.advance { s with lextOut := some (.word (extendedWord s.dw.toNat v)) }) := by
  rw [← signExtend_of_valid hw]
  exact lextCompletes v s

theorem exec_lext_of_invalid {s : State} (hw : widthValid s.dw = false) (v : Word) :
    exec (.lext v) s = .next (State.advance { s with lextOut := some (.err .invalidWidthState) }) := by
  rw [← signExtend_of_invalid hw v]
  exact lextCompletes v s

/-- Settles O16: each of the eight widths is legal or not, and at a legal one the closed form of the mask is the
constant. -/
theorem signExtendCases : Obligations.SignExtendCases := by
  intro s v
  have hat {dw : Width} (hdw : s.dw = dw) (hw : widthValid dw = true) :
      exec (.lext v) s = .next (State.advance { s with lextOut := some (.word (extendedWord dw.toNat v)) }) := by
    subst hdw
    exact exec_lext_of_valid hw v
  refine ⟨fun hdw => hat hdw rfl, fun hdw => hat hdw rfl, fun hdw => hat hdw rfl, fun hdw => ?_, fun hdw => ?_⟩
  · rw [hat hdw rfl]
    exact congrArg (fun x => Host.Outcome.next (State.advance { s with lextOut := some (.word x) }))
      (extendedWord_four v)
  · have hw : widthValid s.dw = false := by rcases hdw with h | h | h | h <;> rw [h] <;> rfl
    exact exec_lext_of_invalid hw v

/-- Settles O17: `extendedWord_getLsbD`, read as a choice between a one and the bit of the operand. -/
theorem lextResultBits : Obligations.LextResultBits := by
  refine fun s v => ⟨fun hw => ?_, fun hw => ⟨_, exec_lext_of_invalid hw v, rfl, rfl, rfl⟩⟩
  refine ⟨_, _, exec_lext_of_valid hw v, rfl, rfl, rfl, fun n hn => ?_⟩
  rw [extendedWord_getLsbD _ v hn]
  by_cases hset : v.getLsbD (8 * s.dw.toNat - 1) = true ∧ 8 * s.dw.toNat ≤ n
  · simp [hset]
  · rw [if_neg hset, Bool.or_eq_left_iff_imp]
    simp only [Bool.and_eq_true, decide_eq_true_eq]
    exact fun h => absurd h hset

/-- Settles O19: the laws of `extendedWord`, and the failure is that of the width test alone. -/
theorem signExtendLaws : Obligations.SignExtendLaws := by
  refine fun dw v => ⟨fun x hx => ?_, ?_, ?_⟩
  · have hw := widthValid_of_word hx
    obtain rfl := (signExtend_eq_word_iff hw v x).1 hx
    exact ⟨(signExtend_eq_word_iff hw _ _).2 (extendedWord_idem ((widthValid_iff dw).1 hw).1 v),
      extendedWord_or_self _ v, fun n hn => extendedWord_getLsbD_low v hn⟩
  · rintro rfl
    exact (signExtend_eq_word_iff rfl v v).2 (extendedWord_four v)
  · refine ⟨fun herr => Bool.eq_false_iff.2 fun hw => ?_, fun hw => signExtend_of_invalid hw v⟩
    cases (signExtend_of_valid hw v).symm.trans herr

/-! ### The two's-complement extension -/

theorem twosComplement_getLsbD {w n : Nat} (v : Word) (hw : 1 ≤ w) (hn : n < 32) :
    ((v.setWidth (8 * w)).signExtend 32).getLsbD n = v.getLsbD (if n < 8 * w then n else 8 * w - 1) := by
  rw [BitVec.getLsbD_signExtend, BitVec.msb_eq_getLsbD_last]
  by_cases h : n < 8 * w
  · simp [hn, h]
  · have hlast : 8 * w - 1 < 8 * w := by omega
    simp [hn, h, hlast]

theorem ushiftRight_eq_zero_iff_getLsbD (v : Word) (k : Nat) :
    v >>> k = 0 ↔ ∀ n, n < 32 → k ≤ n → v.getLsbD n = false := by
  refine ⟨fun h n _ hk => ?_, fun h => BitVec.eq_of_getLsbD_eq fun n _ => ?_⟩
  · have hbit : (v >>> k).getLsbD (n - k) = false := by rw [h]; exact BitVec.getLsbD_zero
    rwa [BitVec.getLsbD_ushiftRight, Nat.add_sub_cancel' hk] at hbit
  · rw [BitVec.getLsbD_ushiftRight]
    by_cases hlt : k + n < 32
    · rw [h _ hlt (Nat.le_add_right k n)]
      exact BitVec.getLsbD_zero.symm
    · rw [BitVec.getLsbD_of_ge v _ (by omega)]
      exact BitVec.getLsbD_zero.symm

/-- Below the width both words have the operand's bits. Above it the extension has the sign bit, and `LEXT` has it
only joined to what stood there. -/
theorem extendedWord_eq_twosComplement_iff {w : Nat} (hw : 1 ≤ w) (v : Word) :
    extendedWord w v = (v.setWidth (8 * w)).signExtend 32 ↔
      v.getLsbD (8 * w - 1) = true ∨ v >>> (8 * w) = 0 := by
  have habove {n : Nat} (hn : n < 32) (hge : 8 * w ≤ n) :
      (extendedWord w v).getLsbD n = (v.getLsbD n || v.getLsbD (8 * w - 1)) ∧
        ((v.setWidth (8 * w)).signExtend 32).getLsbD n = v.getLsbD (8 * w - 1) := by
    rw [extendedWord_getLsbD w v hn, twosComplement_getLsbD v hw hn, if_neg (by omega), decide_eq_true hge,
      Bool.and_true]
    exact ⟨rfl, rfl⟩
  rw [ushiftRight_eq_zero_iff_getLsbD]
  constructor
  · intro heq
    refine or_iff_not_imp_left.2 fun hsign n hn hge => ?_
    obtain ⟨hlext, htwos⟩ := habove hn hge
    rw [heq, htwos, Bool.eq_false_iff.2 hsign, Bool.or_false] at hlext
    exact hlext.symm
  · refine fun hor => BitVec.eq_of_getLsbD_eq fun n hn => ?_
    by_cases hlt : n < 8 * w
    · rw [extendedWord_getLsbD_low v hlt, twosComplement_getLsbD v hw hn, if_pos hlt]
    · obtain ⟨hlext, htwos⟩ := habove hn (Nat.le_of_not_lt hlt)
      rw [hlext, htwos]
      rcases hor with hsign | hclear
      · rw [hsign, Bool.or_true]
      · rw [hclear n hn (Nat.le_of_not_lt hlt), Bool.false_or]

/-- Settles O20: `extendedWord_eq_twosComplement_iff` at the three widths below the full one. -/
theorem signExtendIsTwosComplement : Obligations.SignExtendIsTwosComplement := by
  intro dw v hpos hle
  rw [signExtend_eq_word_iff ((widthValid_iff dw).2 ⟨hpos, by omega⟩)]
  exact extendedWord_eq_twosComplement_iff hpos v

/-! ### An invalid width -/

/-- Settles O30: the three bus operations that read `DW` are refused requests, and `LEXT` fails its width test. -/
theorem invalidWidthIsRefused : Obligations.InvalidWidthIsRefused := by
  refine fun s v hw => ⟨fun i hi hs => ?_, exec_lext_of_invalid hw v⟩
  obtain ⟨code, hcode, huses⟩ : ∃ code, commandByte i = some code ∧ usesWidth i = true := by
    rcases hi with rfl | rfl | rfl <;> exact ⟨_, rfl, rfl⟩
  rw [exec_request hcode, State.request_refused hs ((readsWidth_commandByte hcode).trans huses) hw]
  rfl

end Sys2Proof.Machine
end

section
/-!
PROOFS. An operation that waits: an unanswered call leaves it where it stands, and when it goes on, it goes on with its
frame (60_exceptions R175, R189).
-/

namespace Sys2Proof.Machine

/-- Settles O35: with an empty queue the step takes the operation up, and its run stops at the first call. -/
theorem unansweredCallWaits : Obligations.UnansweredCallWaits := by
  intro s rest h hs hin hreplies
  rw [step_of_empty hin, State.resume_of_coherent h.position, Config.callLimit, runSequencer_silent hs hreplies]

/-! ### The place in the frame, from any phase -/

/-- The events `es` lead from the place in the frame that the phase of `s` names to the place that the phase of `t`
names. -/
structure StageSince (s t : State) (es : List Event) : Prop where
  trace : t.trace = s.trace ++ es
  stage : es.foldl Stage.next (.ofPhase s.seq) = .ofPhase t.seq

theorem StageSince.row {s t u : State} {es : List Event} (h : StageSince s t es) (row : Row t u) :
    ∃ es, StageSince s u es := by
  obtain ⟨e, emits⟩ := row.emits
  refine ⟨es ++ [e], by rw [emits.trace, h.trace, List.append_assoc], ?_⟩
  rw [List.foldl_append, h.stage]
  exact emits.stage

theorem StageSince.waiting {s t u : State} {es : List Event} (h : StageSince s t es) (hu : tick t = .waiting u) :
    StageSince s u es := by
  obtain ⟨same, trace, -⟩ := tick_waiting hu
  exact ⟨trace.trans h.trace, same.seq ▸ h.stage⟩

/-- A run of the sequencer continues the frame from whatever phase it starts in. -/
theorem runSequencer_stageSince (n : Nat) (s : State) : ∃ es, StageSince s (runSequencer n s) es :=
  runSequencer_keeps (P := fun t => ∃ es, StageSince s t es)
    (fun _ _ ⟨_, h⟩ _ hu => h.row (tick_row hu))
    (fun _ _ ⟨es, h⟩ _ hu => ⟨es, h.waiting hu⟩) n s ⟨[], (List.append_nil _).symm, rfl⟩

/-! ### The command byte, from the phases before it -/

/-- In `CMD`, as in `SEL`, the command byte is not yet sent. -/
theorem FrameSince.start_unsent {s : State} (hs : s.seq = .sel ∨ s.seq = .cmd) : FrameSince s s [] where
  trace := (List.append_nil _).symm
  stage := rfl
  opr := fun _ => rfl
  unsent := fun _ => rfl
  sent := fun hd => by simp [hd] at hs
  first := .inr rfl

theorem FrameSince.waiting {s t u : State} {es : List Event} (h : FrameSince s t es) (hu : tick t = .waiting u) :
    FrameSince s u es := by
  obtain ⟨same, trace, -⟩ := tick_waiting hu
  refine ⟨trace.trans h.trace, ?_, ?_, ?_, ?_, h.first⟩ <;> rw [same.seq]
  exacts [h.stage, fun ht => same.opr.trans (h.opr ht), h.unsent, h.sent]

/-- A run goes on with the part of a frame that its operation has come to. -/
theorem FrameSince.run {s t : State} {es : List Event} (n : Nat) (h : FrameSince s t es) :
    ∃ es, FrameSince s (runSequencer n t) es :=
  runSequencer_keeps (P := fun u => ∃ es, FrameSince s u es)
    (fun _ _ ⟨_, h⟩ ht hu => h.row (tick_row hu) ht)
    (fun _ _ ⟨es, h⟩ _ hu => ⟨es, h.waiting hu⟩) n t ⟨es, h⟩

/-- Settles O33: soundness lets the operation go on; the place in the frame holds from every phase, and from `SEL` and
`CMD` the same events, being what the trace gained, send the command byte first. -/
theorem resumedOperationsContinueTheirFrame : Obligations.ResumedOperationsContinueTheirFrame := by
  intro s hsound _
  obtain ⟨es, h⟩ := runSequencer_stageSince Config.callLimit s
  refine ⟨_, es, State.resume_of_coherent hsound.position, h.trace, h.stage, fun hs => ?_⟩
  obtain ⟨es', frame⟩ := (FrameSince.start_unsent hs).run Config.callLimit
  have same : es' = es := List.append_cancel_left (frame.trace.symm.trans h.trace)
  exact same ▸ frame.first

end Sys2Proof.Machine
end

section
/-!
PROOFS. The reset input: construction of the engine's registers and outputs, over what a cut operation leaves of the
line and the peripheral (70_reset_and_hazards R200, R201).
-/

namespace Sys2Proof.Machine

theorem State.resetInput_of_idle {s : State} (hs : s.seq = .idle) : s.resetInput = s.construct := if_pos hs

/-- Whatever the reset cuts short, it constructs from a state with the engine, the host's side, the script and the trace
of `s`: only the line, the peripheral and the free-value counter may differ (U11, log 10). -/
theorem State.resetInput_eq_construct (s : State) :
    ∃ u : State, s.resetInput = u.construct ∧ SameEngine s u ∧ u.replies = s.replies ∧ u.trace = s.trace := by
  by_cases hs : s.seq = .idle
  · exact ⟨s, State.resetInput_of_idle hs, by constructor <;> rfl, rfl, rfl⟩
  · exact ⟨_, if_neg hs, by constructor <;> simp, by simp, by simp⟩

/-- Settles O2: the outputs and registers are those of `construct`, the rest is what the reset constructs from; in `IDLE`
that is the state itself, so its line and peripheral stay too. -/
theorem resetInputConstructs : Obligations.ResetInputConstructs := by
  intro s rest hin
  obtain ⟨u, hu, same, replies, trace⟩ := (s.present .reset rest).resetInput_eq_construct
  refine ⟨u.construct, hu ▸ step_of_reset hin, rfl, rfl, rfl, rfl, trace.trans (State.present_trace ..),
    replies.trans (State.present_replies ..), same.inbox.trans (State.present_inbox ..), same.wdata,
    same.world.trans (State.present_world ..), fun hs => ?_⟩
  have idle : (s.present .reset rest).seq = .idle := (State.present_seq ..).trans hs
  rw [← hu, State.resetInput_of_idle idle]
  exact ⟨State.present_csLine .reset rest s, State.present_dev .reset rest s⟩

end Sys2Proof.Machine
end
